-- ==== Sys2Proof/Word.lean ====
section
/-! DEFINITION. The value types of 00_scope.md R16: bytes, words and finite byte sequences. -/

namespace Sys2Proof

/-- `Byte`: an 8-bit unsigned value (R16). -/
abbrev Byte := BitVec 8

/-- `Word`: a 32-bit unsigned value (R16). -/
abbrev Word := BitVec 32

/-- `Bytes`: a finite sequence of bytes (R16). A *Block* is a `Bytes` of length 16. -/
abbrev Bytes := List Byte

end Sys2Proof
end

