-- ==== Sys2Proof/Syntax.lean ====
section
/-! DEFINITION. The commands of the core: one constructor per row of spec/opcode_table.json (30_encoding.md R66). -/

namespace Sys2Proof

/-- The command set. CONFIG has two rows: with a mode (MP = 1) and without one (MP = 0, CONFIG.DEFAULT). Its fields are
unsigned integers (R64): `mode` the requested mode code, `klen` and `ivlen` the key and IV bytes supplied. -/
inductive Instr
  | nop
  | config (mode klen ivlen : Nat)
  | configDefault (klen ivlen : Nat)
  | encrypt
  | decrypt
  | encryptVerified
  | blockEnc
  | blockDec
  | pad
  | unpad
  | clear
  deriving DecidableEq, Repr

end Sys2Proof
end

