-- ==== Sys2Proof/WellFormed.lean ====
section
/-! DEFINITION. Which terms of `Instr` an encoding exists for: each field fits its bits (30_encoding.md R63). -/

namespace Sys2Proof

/-- MODE is bits 7:4. -/
def modeFits (mode : Nat) : Bool := mode < 16

/-- KLEN is bits 13:9, "0..31". -/
def klenFits (klen : Nat) : Bool := klen < 32

/-- IVLEN is bits 18:14, "0..31". -/
def ivlenFits (ivlen : Nat) : Bool := ivlen < 32

/-- Every field of the command fits its place in the word. Illegal values of a field that do fit (KLEN 15, MODE 9) are
legal encodings (R69) and well-formed. -/
def Instr.wf : Instr → Bool
  | .config mode klen ivlen => modeFits mode && klenFits klen && ivlenFits ivlen
  | .configDefault klen ivlen => klenFits klen && ivlenFits ivlen
  | .nop | .encrypt | .decrypt | .encryptVerified | .blockEnc | .blockDec | .pad | .unpad | .clear => true

end Sys2Proof
end

