-- ==== Sys2Proof/Decode.lean ====
section
/-! DEFINITION. The decoder of 30_encoding.md R68, total over all words, and the encoder written from formats P and C (R62, R63). -/

namespace Sys2Proof

/-- Why a word is illegal (R69). -/
inductive IllegalReason
  /-- OP in 0xA..0xF. -/
  | reservedOpcode
  /-- A reserved bit is set, or CONFIG with MP = 0 and MODE ≠ 0. -/
  | reservedBits
  deriving DecidableEq, Repr

/-- What `Decode(w)` returns (R68). -/
inductive Decoded
  | instr (i : Instr)
  | illegal (r : IllegalReason)
  deriving DecidableEq, Repr

/-- `OP = w[3:0]` (R62, R63). -/
def opField (w : Word) : Nat := (w.extractLsb' 0 4).toNat

/-- `MODE = w[7:4]` (R64). -/
def modeField (w : Word) : Nat := (w.extractLsb' 4 4).toNat

/-- `MP = w[8]` (R64). -/
def mpField (w : Word) : Nat := (w.extractLsb' 8 1).toNat

/-- `KLEN = w[13:9]` (R64). -/
def klenField (w : Word) : Nat := (w.extractLsb' 9 5).toNat

/-- `IVLEN = w[18:14]` (R64). -/
def ivlenField (w : Word) : Nat := (w.extractLsb' 14 5).toNat

/-- The reserved bits 31:19 of format C (R63). -/
def reservedFieldC (w : Word) : Nat := (w.extractLsb' 19 13).toNat

/-- The reserved bits 31:4 of format P (R62). -/
def reservedFieldP (w : Word) : Nat := (w.extractLsb' 4 28).toNat

/-- The CONFIG branch of R68. -/
def decodeConfig (w : Word) : Decoded :=
  if reservedFieldC w ≠ 0 then .illegal .reservedBits
  else if mpField w = 0 then
    if modeField w ≠ 0 then .illegal .reservedBits
    else .instr (.configDefault (klenField w) (ivlenField w))
  else .instr (.config (modeField w) (klenField w) (ivlenField w))

/-- The format-P command of an opcode (R66); none for CONFIG and for the reserved opcodes. -/
def plainOfOpcode : Nat → Option Instr
  | 0x0 => some .nop
  | 0x2 => some .encrypt
  | 0x3 => some .decrypt
  | 0x4 => some .encryptVerified
  | 0x5 => some .blockEnc
  | 0x6 => some .blockDec
  | 0x7 => some .pad
  | 0x8 => some .unpad
  | 0x9 => some .clear
  | _ => none

/-- `Decode(w)` (R68). The opcode alone tells the kind (R61), so a reserved opcode is reported before any reserved bit. -/
def decode (w : Word) : Decoded :=
  if opField w = 0x1 then decodeConfig w
  else
    match plainOfOpcode (opField w) with
    | none => .illegal .reservedOpcode
    | some i => if reservedFieldP w ≠ 0 then .illegal .reservedBits else .instr i

/-- The instruction the decoder reads from a row of spec/opcode_table.json: a command is one 32-bit word (R61), whose bit 0
is its least significant bit (00_scope.md R15); the bits above `nbits` are 0. -/
def decodeTableWord (nbits w : Nat) : Option Instr :=
  match decode (BitVec.ofNat 32 (w % 2 ^ nbits)) with
  | .instr i => some i
  | .illegal _ => none

/-- The opcode of a command (R66). -/
def opcodeOf : Instr → Nat
  | .nop => 0x0
  | .config _ _ _ => 0x1
  | .configDefault _ _ => 0x1
  | .encrypt => 0x2
  | .decrypt => 0x3
  | .encryptVerified => 0x4
  | .blockEnc => 0x5
  | .blockDec => 0x6
  | .pad => 0x7
  | .unpad => 0x8
  | .clear => 0x9

/-- A word of format P (R62): OP in bits 3:0, zeros above. -/
def plainWord (op : Nat) : Word := BitVec.ofNat 28 0 ++ BitVec.ofNat 4 op

/-- A word of format C (R63): bits 31:19 zero, IVLEN, KLEN, MP, MODE, OP. -/
def configWord (mp mode klen ivlen : Nat) : Word :=
  BitVec.ofNat 13 0 ++ BitVec.ofNat 5 ivlen ++ BitVec.ofNat 5 klen ++ BitVec.ofNat 1 mp ++ BitVec.ofNat 4 mode ++ BitVec.ofNat 4 1

/-- The command word of a command (R62, R63, R66). -/
def encode (i : Instr) : Word :=
  match i with
  | .config mode klen ivlen => configWord 1 mode klen ivlen
  | .configDefault klen ivlen => configWord 0 0 klen ivlen
  | .nop | .encrypt | .decrypt | .encryptVerified | .blockEnc | .blockDec | .pad | .unpad | .clear => plainWord (opcodeOf i)

end Sys2Proof
end

