-- ==== Sys2Proof/Config.lean ====
section
/-! DEFINITION. What a platform or a chip fixes and the spec leaves open: opaque constants, of which nothing can be proved. -/

namespace Sys2Proof

/-- FREE VALUE (log entry 4). The arbitrary byte that draw number `n` yields when the host reads a DATA_IN cell that
holds ⊥: "a draw, under no law, independent for each read" (20_memory.md R49). -/
opaque Config.freeByte : Nat → Byte

/-- FREE VALUE (log entry 6). What host variable `name` holds before any line binds it (30_encoding.md R70 does not say). -/
opaque Config.freeHostVar : Nat → Word

/-- `BASE`, the host-bus address of the 16 KiB window (00_scope.md R12, OPEN; log entry 12). -/
opaque Config.base : Nat

/-- The host-bus address of a window offset: `BASE + offset` (20_memory.md R41). -/
def Config.hostAddress (off : BitVec 14) : Nat := Config.base + off.toNat

end Sys2Proof
end

