-- ==== Sys2Proof/Machine/Params.lean ====
section
/-! DEFINITION. The implementation parameters and fixed sizes of 00_scope.md section 3. -/

namespace Sys2Proof.Machine

/-- A block, a key and an IV are 16 bytes (R9). -/
def blockBytes : Nat := 16

/-- The constraints on IN_CAP: "`IN_CAP mod 16 = 0`, `32 <= IN_CAP <= 4080`" (R10). -/
def inCapLegal (cap : Nat) : Bool := cap % 16 = 0 && 32 ≤ cap && cap ≤ 4080

/-- OUT_CAP = IN_CAP + 16 (R11). -/
def outCapOf (inCap : Nat) : Nat := inCap + 16

/-- DESIGN CHOICE (log entry 1), unsafe: IN_CAP of `State.reset`. The spec leaves it OPEN; 64 is the value of its own
example (95_test_vectors.md V-BUS-9). -/
def resetInCap : Nat := 64

end Sys2Proof.Machine
end

