-- ==== Sys2Proof/Machine/State.lean ====
section
/-! DEFINITION. The machine's state as plain data (10_state.md R21), the agents around it, why a step can stop, and reset (70_reset_and_hazards.md R141). -/

namespace Sys2Proof.Machine

/-- Whether the core holds an engine instance (10_state.md R22). -/
inductive Cfg
  | unconfigured
  | configured
  deriving DecidableEq, Repr

/-- The mode of the engine instance: "exactly one of the four" (10_state.md R27), a closed enumeration (44_mode_drivers.md R115). -/
inductive Mode
  | ecb
  | cbc
  | cfb
  | ofb
  deriving DecidableEq, Repr

/-- Direction of a host access (20_memory.md R44). -/
inductive Dir
  | read
  | write
  deriving DecidableEq, Repr

/-- A host access `(dir, width, off, wdata)` (20_memory.md R44). `width` is in bits and may be an unsupported one, which is a
bus error (R45). For an 8-bit write the byte is `wdata[7:0]`. A read carries no write data: `wdata` is not looked at. -/
structure Access where
  dir : Dir
  width : Nat
  off : BitVec 14
  wdata : Word
  deriving DecidableEq, Repr

/-- The response to a host access (20_memory.md R44): `Ok rdata` for a read of either width, `Ok` for a write, or `BusError`. -/
inductive Response
  | okRead8 (rdata : Byte)
  | okRead32 (rdata : Word)
  | okWrite
  | busError
  deriving DecidableEq, Repr

/-- A line of a host program (30_encoding.md R70). Host variables are numbers and labels are line indexes (log entry 6). -/
inductive HostLine
  /-- A bus access; the data of a read is bound to host variable `bind`. -/
  | access (a : Access) (bind : Option Nat)
  /-- `BNZ name, mask, label`: go to line `target` if `(name & mask) ≠ 0`; not a bus access. -/
  | bnz (name : Nat) (mask : Word) (target : Nat)
  deriving DecidableEq, Repr

/-- The host agent (40_command_execution.md R72; the model's own field, log entry 6): its program, the index of its next
line, and its variables (bound names only, in rising order). -/
structure HostAgent where
  prog : List HostLine
  line : Nat
  vars : List (Nat × Word)
  deriving DecidableEq, Repr

/-- Which agent moves in a step. "Either agent may step whenever it has a step enabled" (40_command_execution.md R72);
reset may be asserted at any time (70_reset_and_hazards.md R141). -/
inductive Turn
  | core
  | host
  | reset
  deriving DecidableEq, Repr

/-- The machine's state. The first sixteen fields are the spec's record (10_state.md R21), `inCap` is the parameter IN_CAP
(00_scope.md R10), and the last four are the model's own: the bus response lines, the counter of free values, the host agent
and the order in which the agents move. -/
structure State where
  /-- CFG (R22). -/
  cfg : Cfg
  /-- KEY, 16 bytes in the host's order (R25). -/
  key : Bytes
  /-- IV, 16 bytes (R26). -/
  iv : Bytes
  /-- MODE (R27). -/
  mode : Mode
  /-- RK[0..31] (R28). -/
  rk : List Word
  /-- STATUS.BUSY (R31). -/
  busy : Bool
  /-- STATUS.DONE (R31). -/
  done : Bool
  /-- STATUS.IGN, sticky (R31). -/
  ign : Bool
  /-- STATUS.OUT_VALID (R31). -/
  outValid : Bool
  /-- ERROR.CODE (R32). -/
  errCode : BitVec 4
  /-- ERROR.DETAIL (R32). -/
  errDetail : BitVec 8
  /-- IN_LEN (R33). -/
  inLen : Word
  /-- OUT_LEN (R34). -/
  outLen : Word
  /-- PEND, the accepted command word (R24). -/
  pend : Word
  /-- DATA_IN (R36): the written cells by index; an unlisted cell is ⊥. -/
  dataIn : List Host.Cell
  /-- DATA_OUT (R37): the nonzero bytes by index; an unlisted byte is 0. -/
  dataOut : List Host.Cell
  /-- IN_CAP (00_scope.md R10): fixed for the machine, written by nothing (log entry 1). -/
  inCap : Nat
  /-- The response to the last host access (log entry 8). -/
  resp : Option Response
  /-- How many free bytes host reads of ⊥ cells have drawn (log entry 4). -/
  draws : Nat
  /-- The host agent (log entry 6). -/
  host : HostAgent
  /-- Who moves in the coming steps; when used up, the core if BUSY, else the host (log entry 2). -/
  turns : List Turn
  deriving DecidableEq, Repr

/-- Why a step stops with a fault. -/
inductive Fault
  /-- Raised at completion by CONFIG, ENCRYPT, DECRYPT, ENCRYPT_VERIFIED, BLOCK_ENC, BLOCK_DEC, PAD and UNPAD when the command reads a
  DATA_IN cell that holds ⊥: the model fault `UnwrittenInput` of 60_exceptions.md R132. SAFE: the chip computes some result from
  what its RAM holds, and the model admits no run. -/
  | unwrittenInput
  deriving DecidableEq, Repr

/-- Why an instruction has no meaning. -/
inductive Refusal
  /-- Raised only by an arm of `exec` for an instruction the model gives no meaning: no arm raises it. SAFE: nothing is
  proved of such an instruction. -/
  | notModelled (mnemonic : String)
  deriving DecidableEq, Repr

/-- The core right after reset with capacity `cap` (70_reset_and_hazards.md R141), no host program placed. -/
def State.resetWith (cap : Nat) : State where
  cfg := .unconfigured
  key := List.replicate 16 0
  iv := List.replicate 16 0
  mode := .ecb
  rk := List.replicate 32 0
  busy := false
  done := false
  ign := false
  outValid := false
  errCode := 0
  errDetail := 0
  inLen := 0
  outLen := 0
  pend := 0
  dataIn := []
  dataOut := []
  inCap := cap
  resp := none
  draws := 0
  host := ⟨[], 0, []⟩
  turns := []

/-- The machine right after reset. IN_CAP is OPEN: the value here is a DESIGN CHOICE (log entry 1). -/
def State.reset : State := State.resetWith resetInCap

end Sys2Proof.Machine
end

