-- ==== Sys2Proof/Machine/Errors.lean ====
section
/-! DEFINITION. Error kinds and detail codes (60_exceptions.md R126, R127), and what a command body returns (40_command_execution.md R75). -/

namespace Sys2Proof.Machine

/-- The six error kinds of ERROR.CODE (R126). -/
inductive ErrKind
  | configuration
  | padding
  | unsupportedMode
  | verificationMismatch
  | illegalCommand
  | length
  deriving DecidableEq, Repr

/-- ERROR.CODE of a kind (R126). -/
def ErrKind.code : ErrKind → BitVec 4
  | .configuration => 1
  | .padding => 2
  | .unsupportedMode => 3
  | .verificationMismatch => 4
  | .illegalCommand => 5
  | .length => 6

/-- `KIND(detail)`: an error a command body raises (R128). -/
structure CmdError where
  kind : ErrKind
  detail : BitVec 8
  deriving DecidableEq, Repr

/-! The rows of R127. -/

def keyMissing : CmdError := ⟨.configuration, 1⟩
def keyLength : CmdError := ⟨.configuration, 2⟩
def ivMissing : CmdError := ⟨.configuration, 3⟩
def ivLength : CmdError := ⟨.configuration, 4⟩
def notConfigured : CmdError := ⟨.configuration, 5⟩
def alreadyConfigured : CmdError := ⟨.configuration, 6⟩
def paddingLength : CmdError := ⟨.padding, 1⟩
def padValue : CmdError := ⟨.padding, 2⟩
def padBytes : CmdError := ⟨.padding, 3⟩
/-- UNSUPPORTED_MODE: the detail is the rejected mode code, 4..15. -/
def unsupportedMode (mode : Nat) : CmdError := ⟨.unsupportedMode, BitVec.ofNat 8 mode⟩
def bytesDiffer : CmdError := ⟨.verificationMismatch, 1⟩
def decryptFailed : CmdError := ⟨.verificationMismatch, 2⟩
def exceedsCapacity : CmdError := ⟨.length, 1⟩
def notOneBlock : CmdError := ⟨.length, 2⟩

/-- ILLEGAL_COMMAND with the decoder's reason as detail (R127, 30_encoding.md R69). -/
def illegalCommand : IllegalReason → CmdError
  | .reservedOpcode => ⟨.illegalCommand, 1⟩
  | .reservedBits => ⟨.illegalCommand, 2⟩

/-- The components an engine update writes: `upd` of 40_command_execution.md R75. -/
structure Engine where
  cfg : Cfg
  key : Bytes
  iv : Bytes
  mode : Mode
  rk : List Word
  deriving DecidableEq, Repr

/-- `r = Exec(PEND, S)` (40_command_execution.md R75): success with an engine update or none and with an output or none, failure, or the
model fault UnwrittenInput (60_exceptions.md R132). -/
inductive CmdResult
  | success (upd : Option Engine) (out : Option Bytes)
  | failure (e : CmdError)
  | modelFault
  deriving DecidableEq, Repr

end Sys2Proof.Machine
end

