-- ==== Sys2Proof/Machine/Ops.lean ====
section
/-! DEFINITION. The named operations: the byte buffers, acceptance, completion, reporting an error and its clearing, reset. -/

namespace Sys2Proof.Machine

/-! ### Sparse data in rising key order -/

/-- The value listed under key `a`. -/
def lookup {α : Type} : List (Nat × α) → Nat → Option α
  | [], _ => none
  | (k, v) :: rest, a => if k = a then some v else lookup rest a

/-- List `v` under key `a`, in place of what was listed there. -/
def insertCell {α : Type} : List (Nat × α) → Nat → α → List (Nat × α)
  | [], a, v => [(a, v)]
  | (k, w) :: rest, a, v =>
    if a < k then (a, v) :: (k, w) :: rest
    else if a = k then (a, v) :: rest
    else (k, w) :: insertCell rest a v

/-- Unlist key `a`. -/
def eraseCell {α : Type} (m : List (Nat × α)) (a : Nat) : List (Nat × α) := m.filter (fun c => c.1 ≠ a)

/-- Keys strictly rising: the canonical form's order. -/
abbrev keysRise {α : Type} (m : List (Nat × α)) : Prop := m.Pairwise (fun x y => x.1 < y.1)

/-! ### The two byte buffers (10_state.md R36, R37) -/

/-- The memories of the window: separate buffers, with no aliasing (92_eei_decisions.md D43). -/
inductive Buffer
  | dataIn
  | dataOut
  deriving DecidableEq, Repr

/-- What an unlisted index reads as: ⊥ in DATA_IN, "never written since reset" (R36; log entry 3), and 0x00 in DATA_OUT (R37, R141). -/
def Buffer.unlisted : Buffer → Option Byte
  | .dataIn => none
  | .dataOut => some 0

/-- The canonical form of a buffer: indexes strictly rising, and no entry equal to what an unlisted index reads as. -/
abbrev Memory.wf (b : Buffer) (m : List Host.Cell) : Prop :=
  keysRise m ∧ ∀ c ∈ m, b.unlisted ≠ some c.2

/-- The cell at index `a`: a byte, or none for ⊥. -/
def Memory.read (b : Buffer) (m : List Host.Cell) (a : Nat) : Option Byte :=
  match lookup m a with
  | some v => some v
  | none => b.unlisted

/-- Store `v` at index `a`, keeping the canonical form. -/
def Memory.write (b : Buffer) (m : List Host.Cell) (a : Nat) (v : Byte) : List Host.Cell :=
  if b.unlisted = some v then eraseCell m a else insertCell m a v

/-- Store bytes from index `a` upwards. -/
def Memory.writeBytes (b : Buffer) (m : List Host.Cell) (a : Nat) : Bytes → List Host.Cell
  | [] => m
  | v :: vs => Memory.writeBytes b (Memory.write b m a v) (a + 1) vs

/-- The `n` bytes from index `a`; none if any of them is ⊥. -/
def Memory.readBytes (b : Buffer) (m : List Host.Cell) (a : Nat) : Nat → Option Bytes
  | 0 => some []
  | n + 1 =>
    match Memory.read b m a, Memory.readBytes b m (a + 1) n with
    | some v, some vs => some (v :: vs)
    | _, _ => none

/-- `DATA_IN[k]`: a byte or ⊥ (R36). -/
def State.inByte (s : State) (k : Nat) : Option Byte := Memory.read .dataIn s.dataIn k

/-- `DATA_OUT[k]` (R37). -/
def State.outByte (s : State) (k : Nat) : Byte := (Memory.read .dataOut s.dataOut k).getD 0

/-- OUT_CAP (00_scope.md R11). -/
def State.outCap (s : State) : Nat := outCapOf s.inCap

/-! ### Acceptance, completion, errors -/

/-- Acceptance of word `w` (40_command_execution.md R73). It is also the place of a return from an error: ERROR is cleared by the next
acceptance and by nothing else but reset (60_exceptions.md R130). `DATA_OUT <- rep(OUT_CAP, 0x00)` lists no byte. -/
def State.accept (w : Word) (s : State) : State :=
  { s with
    busy := true, done := false, ign := false, outValid := false
    errCode := 0, errDetail := 0, outLen := 0, dataOut := [], pend := w }

/-- Reporting an error, the place of taking an exception (60_exceptions.md R128, R129): completion with a failure writes CODE, DETAIL, BUSY and
DONE and nothing else; no vector, no saved state, no mode change. -/
def State.reportError (e : CmdError) (s : State) : State :=
  { s with errCode := e.kind.code, errDetail := e.detail, busy := false, done := true }

/-- Completion with success and no result: `OUT_VALID <- 0; OUT_LEN <- 0` (40_command_execution.md R75). -/
def State.finishPlain (s : State) : State :=
  { s with outValid := false, outLen := 0, busy := false, done := true }

/-- Completion with success and a result: `MemWrite(0, len(out), out)`, OUT_LEN, OUT_VALID (40_command_execution.md R75). -/
def State.finishOutput (out : Bytes) (s : State) : State :=
  { s with
    dataOut := Memory.writeBytes .dataOut s.dataOut 0 out
    outLen := BitVec.ofNat 32 out.length, outValid := true, busy := false, done := true }

/-- `apply upd`: the writes to CFG, KEY, IV, MODE and RK (40_command_execution.md R75). -/
def State.withEngine (e : Engine) (s : State) : State :=
  { s with cfg := e.cfg, key := e.key, iv := e.iv, mode := e.mode, rk := e.rk }

/-- Apply an engine update, if there is one. -/
def State.applyUpdate : Option Engine → State → State
  | none, s => s
  | some e, s => s.withEngine e

/-- Applying a command's result, atomically (40_command_execution.md R75). -/
def complete (r : CmdResult) (s : State) : Host.Outcome State Fault Refusal :=
  match r with
  | .success upd none => .next (s.applyUpdate upd).finishPlain
  | .success upd (some out) => .next ((s.applyUpdate upd).finishOutput out)
  | .failure e => .next (s.reportError e)
  | .modelFault => .fault .unwrittenInput

/-- Asserting reset (70_reset_and_hazards.md R141): every component of the state record takes its reset value, in any state, BUSY included.
IN_CAP is fixed for the machine, and the agents around the core are not reset (log entry 9). -/
def State.assertReset (s : State) : State :=
  { State.resetWith s.inCap with resp := s.resp, draws := s.draws, host := s.host, turns := s.turns }

end Sys2Proof.Machine
end

