-- ==== Sys2Proof/Machine/Flags.lean ====
section
/-! DEFINITION. The register views of the state: STATUS, ERROR and CAPS (10_state.md R31, R32, R35). The core has no other flags (R40). -/

namespace Sys2Proof.Machine

/-- Mode codes: 0 = ECB, 1 = CBC, 2 = CFB, 3 = OFB (30_encoding.md R65). -/
def Mode.code : Mode → BitVec 2
  | .ecb => 0
  | .cbc => 1
  | .cfb => 2
  | .ofb => 3

/-- The mode of a code; none for the unsupported codes 4..15 (30_encoding.md R65). -/
def modeOfCode : Nat → Option Mode
  | 0 => some .ecb
  | 1 => some .cbc
  | 2 => some .cfb
  | 3 => some .ofb
  | _ => none

/-- STATUS.ERR, bit 2: `ERR_CODE != 0` (R31). -/
def State.errFlag (s : State) : Bool := s.errCode ≠ 0

/-- STATUS.CFG, bit 3 (R31). -/
def State.cfgFlag (s : State) : Bool := s.cfg = .configured

/-- STATUS.MODE, bits 9:8: MODE while configured, else 0 (R31, 92_eei_decisions.md D39). -/
def State.modeView (s : State) : BitVec 2 := if s.cfg = .configured then s.mode.code else 0

/-- STATUS (R31): reserved 31:10, MODE 9:8, reserved 7:6, IGN, OUT_VALID, CFG, ERR, DONE, BUSY. -/
def State.statusWord (s : State) : Word :=
  BitVec.ofNat 22 0 ++ s.modeView ++ BitVec.ofNat 2 0 ++ BitVec.ofBool s.ign ++ BitVec.ofBool s.outValid ++
    BitVec.ofBool s.cfgFlag ++ BitVec.ofBool s.errFlag ++ BitVec.ofBool s.done ++ BitVec.ofBool s.busy

/-- ERROR (R32): DETAIL in 15:8, CODE in 3:0, the rest 0. -/
def State.errorWord (s : State) : Word :=
  BitVec.ofNat 16 0 ++ s.errDetail ++ BitVec.ofNat 4 0 ++ s.errCode

/-- CAPS (R35): IN_CAP in 15:0, 31:16 zero. -/
def State.capsWord (s : State) : Word := BitVec.ofNat 16 0 ++ BitVec.ofNat 16 s.inCap

end Sys2Proof.Machine
end

