-- ==== Sys2Proof/Machine/Bytes.lean ====
section
/-! DEFINITION. Words and bytes: the big-endian split and join inside the cipher (00_scope.md R17, 20_memory.md R59), the
little-endian lanes of the host port (20_memory.md R46), and XOR of byte sequences. -/

namespace Sys2Proof.Machine

/-- `BE32(b0,b1,b2,b3)` (R17): b0 is the most significant byte. -/
def be32 (b0 b1 b2 b3 : Byte) : Word := b0 ++ b1 ++ b2 ++ b3

/-- Byte lane `j` of a word, counted from the least significant: `w[8j+7:8j]`. -/
def lane (w : Word) (j : Nat) : Byte := w.extractLsb' (8 * j) 8

/-- `bytesBE(w)` (R17): the four bytes, most significant first. -/
def bytesBE (w : Word) : Bytes := [lane w 3, lane w 2, lane w 1, lane w 0]

/-- The four bytes of a word in bus-lane order: the byte at the lowest offset is bits 7:0 (20_memory.md R46). -/
def bytesLE (w : Word) : Bytes := [lane w 0, lane w 1, lane w 2, lane w 3]

/-- A word from four bytes in bus-lane order (20_memory.md R46). -/
def le32 (b0 b1 b2 b3 : Byte) : Word := be32 b3 b2 b1 b0

/-- Byte `k` of a byte sequence; the cipher only asks for bytes the sequence has (a Block has 16). -/
def byteAt (s : Bytes) (k : Nat) : Byte := s.getD k 0

/-- `W_j = BE32(b[4j], b[4j+1], b[4j+2], b[4j+3])` (20_memory.md R59). -/
def wordAt (s : Bytes) (j : Nat) : Word :=
  be32 (byteAt s (4 * j)) (byteAt s (4 * j + 1)) (byteAt s (4 * j + 2)) (byteAt s (4 * j + 3))

/-- `⊕` of two byte sequences, byte by byte (R17). -/
def xorBytes (a b : Bytes) : Bytes := List.zipWith (· ^^^ ·) a b

/-- `trunc(s, n) = s[0..n)` (R17). -/
def trunc (s : Bytes) (n : Nat) : Bytes := s.take n

/-- `rep(n, v)` (R16). -/
def rep (n : Nat) (v : Byte) : Bytes := List.replicate n v

end Sys2Proof.Machine
end

