-- ==== Sys2Proof/Machine/Operands.lean ====
section
/-! DEFINITION. Where a command's operands come from and the shared checks before them (40_command_execution.md R77, R78; 00_scope.md R18;
30_encoding.md R64). Each check takes the rest of the body as its continuation, so a body reads as the spec's pseudocode. -/

namespace Sys2Proof.Machine

/-- `MemRead(k, n)`: the bytes DATA_IN[k..k+n), none if any holds ⊥ (00_scope.md R18). -/
def State.memRead (s : State) (k n : Nat) : Option Bytes := Memory.readBytes .dataIn s.dataIn k n

/-- `let v = MemRead(k, n)`, with the model fault UnwrittenInput if a byte is ⊥ (60_exceptions.md R132). -/
def withInput (s : State) (k n : Nat) (body : Bytes → CmdResult) : CmdResult :=
  match s.memRead k n with
  | none => .modelFault
  | some v => body v

/-- `RequireConfigured(S)` (40_command_execution.md R77). -/
def requireConfigured (s : State) (body : CmdResult) : CmdResult :=
  if s.cfg = .unconfigured then .failure notConfigured else body

/-- `RequireCapacity(S)`: "if `S.IN_LEN > IN_CAP`" (40_command_execution.md R78). -/
def requireCapacity (s : State) (body : CmdResult) : CmdResult :=
  if s.inLen.toNat > s.inCap then .failure exceedsCapacity else body

/-- `if S.IN_LEN != 16: raise LENGTH(NOT_ONE_BLOCK)` (42_block_transform.md R97, R98). -/
def requireOneBlock (s : State) (body : CmdResult) : CmdResult :=
  if s.inLen ≠ 16 then .failure notOneBlock else body

/-- The payload of a data command: the capacity check, then `MemRead(0, S.IN_LEN)` (40_command_execution.md R78). -/
def withPayload (s : State) (body : Bytes → CmdResult) : CmdResult :=
  requireCapacity s (withInput s 0 s.inLen.toNat body)

end Sys2Proof.Machine
end

