-- ==== Sys2Proof/Machine/Control.lean ====
section
/-! DEFINITION. NOP, CLEAR and CONFIG (40_command_execution.md R80, R81; 41_key_schedule.md R90). -/

namespace Sys2Proof.Machine

/-- NOP: `Success({}, none)` (40_command_execution.md R80). -/
def execNop (s : State) : Host.Outcome State Fault Refusal := complete (.success none none) s

/-- What CLEAR leaves of the engine instance: the reset values (40_command_execution.md R81). -/
def clearedEngine : Engine where
  cfg := .unconfigured
  key := List.replicate 16 0
  iv := List.replicate 16 0
  mode := .ecb
  rk := List.replicate 32 0

/-- CLEAR (40_command_execution.md R81). -/
def execClear (s : State) : Host.Outcome State Fault Refusal := complete (.success (some clearedEngine) none) s

/-- The engine instance CONFIG creates (41_key_schedule.md R90). -/
def newEngine (m : Mode) (key iv : Bytes) : Engine where
  cfg := .configured
  key := key
  iv := iv
  mode := m
  rk := keyExpand key

/-- `ExecConfig(mp, mode, klen, ivlen, S)` (41_key_schedule.md R90), its checks in the order written. `mode` is none for MP = 0, which
selects ECB (30_encoding.md R65). The key is DATA_IN[0..16) and the IV DATA_IN[16..32), in every mode (90_conflicts.md C1). -/
def configBody (mode : Option Nat) (klen ivlen : Nat) (s : State) : CmdResult :=
  if s.cfg = .configured then .failure alreadyConfigured
  else if klen = 0 then .failure keyMissing
  else if klen ≠ 16 then .failure keyLength
  else if ivlen = 0 then .failure ivMissing
  else if ivlen ≠ 16 then .failure ivLength
  else
    match modeOfCode (mode.getD 0) with
    | none => .failure (unsupportedMode (mode.getD 0))
    | some m => withInput s 0 16 (fun key => withInput s 16 16 (fun iv => .success (some (newEngine m key iv)) none))

/-- CONFIG with MP = 1 (41_key_schedule.md R90). -/
def execConfig (mode klen ivlen : Nat) (s : State) : Host.Outcome State Fault Refusal :=
  complete (configBody (some mode) klen ivlen s) s

/-- CONFIG with MP = 0, the row CONFIG.DEFAULT: the mode is unspecified (41_key_schedule.md R90). -/
def execConfigDefault (klen ivlen : Nat) (s : State) : Host.Outcome State Fault Refusal :=
  complete (configBody none klen ivlen s) s

end Sys2Proof.Machine
end

