-- ==== Sys2Proof/Machine/BlockTransform.lean ====
section
/-! DEFINITION. The block transform and the commands BLOCK_ENC and BLOCK_DEC (42_block_transform.md). -/

namespace Sys2Proof.Machine

/-- `L(B) = B ⊕ (B <<< 2) ⊕ (B <<< 10) ⊕ (B <<< 18) ⊕ (B <<< 24)` (R91). -/
def linBlock (b : Word) : Word := b ^^^ b.rotateLeft 2 ^^^ b.rotateLeft 10 ^^^ b.rotateLeft 18 ^^^ b.rotateLeft 24

/-- `T(A) = L(τ(A))` (R92). -/
def transBlock (a : Word) : Word := linBlock (tau a)

/-- One round: `X_i..X_{i+3}` to `X_{i+1}..X_{i+4}` with `X_{i+4} = X_i ⊕ T(X_{i+1} ⊕ X_{i+2} ⊕ X_{i+3} ⊕ ks[i])` (R93). -/
def roundStep (x : Quad) (k : Word) : Quad := ⟨x.b, x.c, x.d, x.a ^^^ transBlock (x.b ^^^ x.c ^^^ x.d ^^^ k)⟩

/-- The four words `X0..X3` of a block (R93, 20_memory.md R59). -/
def splitBlock (b : Bytes) : Quad := ⟨wordAt b 0, wordAt b 1, wordAt b 2, wordAt b 3⟩

/-- `bytesBE(X35) ‖ bytesBE(X34) ‖ bytesBE(X33) ‖ bytesBE(X32)`: the last four words in reverse order (R93). -/
def joinReversed (x : Quad) : Bytes := bytesBE x.d ++ bytesBE x.c ++ bytesBE x.b ++ bytesBE x.a

/-- `Rounds(ks, B)` (R93), one round for each word of `ks`, which has 32. -/
def rounds (ks : List Word) (b : Bytes) : Bytes := joinReversed (ks.foldl roundStep (splitBlock b))

/-- `BlockEncrypt(rk, B) = Rounds(rk, B)` (R94). -/
def blockEncrypt (rk : List Word) (b : Bytes) : Bytes := rounds rk b

/-- `BlockDecrypt(rk, B) = Rounds(rev(rk), B)` (R95). -/
def blockDecrypt (rk : List Word) (b : Bytes) : Bytes := rounds rk.reverse b

/-- The body shared by the block commands: configured, exactly one block, then the transform (R97, R98). -/
def blockBody (f : List Word → Bytes → Bytes) (s : State) : CmdResult :=
  requireConfigured s (requireOneBlock s (withInput s 0 16 (fun b => .success none (some (f s.rk b)))))

/-- BLOCK_ENC (R97). MODE and IV are ignored (92_eei_decisions.md D46). -/
def execBlockEnc (s : State) : Host.Outcome State Fault Refusal := complete (blockBody blockEncrypt s) s

/-- BLOCK_DEC (R98). -/
def execBlockDec (s : State) : Host.Outcome State Fault Refusal := complete (blockBody blockDecrypt s) s

end Sys2Proof.Machine
end

