-- ==== Sys2Proof/Machine/Padding.lean ====
section
/-! DEFINITION. The padding engine and the commands PAD and UNPAD (43_padding.md). -/

namespace Sys2Proof.Machine

/-- `n = 16 − (len(P) mod 16)` (R99). -/
def padCount (len : Nat) : Nat := 16 - len % 16

/-- `Pad(P) = P ‖ rep(n, n)` (R99). -/
def pad (p : Bytes) : Bytes := p ++ rep (padCount p.length) (BitVec.ofNat 8 (padCount p.length))

/-- Whether a length is no nonzero multiple of 16: the check before unpadding (R100; 44_mode_drivers.md R107, R110). -/
def badBlockLength (len : Nat) : Bool := len = 0 || len % 16 ≠ 0

/-- `Unpad(Q)`, its checks in the order written (R100). -/
def unpad (q : Bytes) : Except CmdError Bytes :=
  if badBlockLength q.length then .error paddingLength
  else
    let n := byteAt q (q.length - 1)
    if n = 0 ∨ n.toNat > 16 then .error padValue
    else if (q.drop (q.length - n.toNat)).all (fun b => b = n) then .ok (q.take (q.length - n.toNat))
    else .error padBytes

/-- `let P <- r` at the end of a body: an error propagates as the command's failure (00_scope.md R19). -/
def emit : Except CmdError Bytes → CmdResult
  | .ok p => .success none (some p)
  | .error e => .failure e

/-- PAD (R103): the same in either CFG state and for every MODE (92_eei_decisions.md D44). -/
def execPad (s : State) : Host.Outcome State Fault Refusal :=
  complete (withPayload s (fun p => .success none (some (pad p)))) s

/-- UNPAD (R104). -/
def execUnpad (s : State) : Host.Outcome State Fault Refusal :=
  complete (withPayload s (fun q => emit (unpad q))) s

end Sys2Proof.Machine
end

