-- ==== Sys2Proof/Machine/ModeDrivers.lean ====
section
/-! DEFINITION. The four mode drivers and the commands ENCRYPT and DECRYPT (44_mode_drivers.md). `E` is `blockEncrypt rk`, `D` is `blockDecrypt rk`. -/

namespace Sys2Proof.Machine

/-- The first `m` pieces of 16 bytes of a sequence; the last may be short. -/
def pieces : Nat → Bytes → List Bytes
  | 0, _ => []
  | m + 1, q => q.take 16 :: pieces m (q.drop 16)

/-- `Blocks(Q)`, with `m = len(Q)/16` (R105). -/
def blocks (q : Bytes) : List Bytes := pieces (q.length / 16) q

/-- `Chunks(P)`, with `m = ceil(len(P)/16)` (R105). -/
def chunks (p : Bytes) : List Bytes := pieces ((p.length + 15) / 16) p

/-- ECB encryption: "each block encrypted/decrypted independently" (R106). The IV is not read. -/
def ecbEncrypt (rk : List Word) (p : Bytes) : Bytes := ((blocks (pad p)).map (blockEncrypt rk)).flatten

/-- ECB decryption, then unpad (R107). -/
def ecbDecrypt (rk : List Word) (c : Bytes) : Except CmdError Bytes :=
  if badBlockLength c.length then .error paddingLength
  else unpad ((blocks c).map (blockDecrypt rk)).flatten

/-- The loop of CbcEncrypt over the blocks, `prev` the previous ciphertext block or the IV (R109). -/
def cbcEncryptBlocks (rk : List Word) : Bytes → List Bytes → Bytes
  | _, [] => []
  | prev, q :: qs => blockEncrypt rk (xorBytes q prev) ++ cbcEncryptBlocks rk (blockEncrypt rk (xorBytes q prev)) qs

/-- CBC encryption (R109). -/
def cbcEncrypt (rk : List Word) (iv p : Bytes) : Bytes := cbcEncryptBlocks rk iv (blocks (pad p))

/-- The loop of CbcDecrypt over the blocks (R110). -/
def cbcDecryptBlocks (rk : List Word) : Bytes → List Bytes → Bytes
  | _, [] => []
  | prev, c :: cs => xorBytes (blockDecrypt rk c) prev ++ cbcDecryptBlocks rk c cs

/-- CBC decryption, then unpad (R110). -/
def cbcDecrypt (rk : List Word) (iv c : Bytes) : Except CmdError Bytes :=
  if badBlockLength c.length then .error paddingLength
  else unpad (cbcDecryptBlocks rk iv (blocks c))

/-- `x ⊕ trunc(S, len(x))`: a chunk under its keystream block, as many bytes as the chunk has (R111 to R113). -/
def xorKeystream (x s : Bytes) : Bytes := xorBytes x (trunc s x.length)

/-- The loop of CfbEncrypt: the feedback is the ciphertext chunk (R111). -/
def cfbEncryptChunks (rk : List Word) : Bytes → List Bytes → Bytes
  | _, [] => []
  | fb, p :: ps => xorKeystream p (blockEncrypt rk fb) ++ cfbEncryptChunks rk (xorKeystream p (blockEncrypt rk fb)) ps

/-- CFB encryption with full-block feedback, no padding (R111). -/
def cfbEncrypt (rk : List Word) (iv p : Bytes) : Bytes := cfbEncryptChunks rk iv (chunks p)

/-- The loop of CfbDecrypt: the feedback is the received ciphertext chunk; it uses E, not D (R112). -/
def cfbDecryptChunks (rk : List Word) : Bytes → List Bytes → Bytes
  | _, [] => []
  | fb, c :: cs => xorKeystream c (blockEncrypt rk fb) ++ cfbDecryptChunks rk c cs

/-- CFB decryption: any length, it never fails (R112). -/
def cfbDecrypt (rk : List Word) (iv c : Bytes) : Bytes := cfbDecryptChunks rk iv (chunks c)

/-- The loop of OfbCrypt: the feedback is the keystream block (R113). -/
def ofbChunks (rk : List Word) : Bytes → List Bytes → Bytes
  | _, [] => []
  | s, x :: xs => xorKeystream x (blockEncrypt rk s) ++ ofbChunks rk (blockEncrypt rk s) xs

/-- `OfbCrypt(rk, iv, X)`, the same for encryption and decryption (R113, R114). -/
def ofbCrypt (rk : List Word) (iv x : Bytes) : Bytes := ofbChunks rk iv (chunks x)

/-- `ModeEncrypt(m, rk, iv, P)`: it never fails (R115). -/
def modeEncrypt (m : Mode) (rk : List Word) (iv p : Bytes) : Bytes :=
  match m with
  | .ecb => ecbEncrypt rk p
  | .cbc => cbcEncrypt rk iv p
  | .cfb => cfbEncrypt rk iv p
  | .ofb => ofbCrypt rk iv p

/-- `ModeDecrypt(m, rk, iv, C)`: it fails only with PADDING, in ECB and CBC (R115). -/
def modeDecrypt (m : Mode) (rk : List Word) (iv c : Bytes) : Except CmdError Bytes :=
  match m with
  | .ecb => ecbDecrypt rk c
  | .cbc => cbcDecrypt rk iv c
  | .cfb => .ok (cfbDecrypt rk iv c)
  | .ofb => .ok (ofbCrypt rk iv c)

/-- The frame of ENCRYPT, DECRYPT and ENCRYPT_VERIFIED: configured, capacity, payload, then the operation (R120, R121; 45_verifier.md R125). -/
def cipherBody (f : Mode → List Word → Bytes → Bytes → Except CmdError Bytes) (s : State) : CmdResult :=
  requireConfigured s (withPayload s (fun p => emit (f s.mode s.rk s.iv p)))

/-- ENCRYPT (R120). The engine instance is not changed: the IV does not advance. -/
def execEncrypt (s : State) : Host.Outcome State Fault Refusal :=
  complete (cipherBody (fun m rk iv p => .ok (modeEncrypt m rk iv p)) s) s

/-- DECRYPT (R121). -/
def execDecrypt (s : State) : Host.Outcome State Fault Refusal := complete (cipherBody modeDecrypt s) s

end Sys2Proof.Machine
end

