-- ==== Sys2Proof/Machine/Verifier.lean ====
section
/-! DEFINITION. The round-trip verifier and the command ENCRYPT_VERIFIED (45_verifier.md). -/

namespace Sys2Proof.Machine

/-- `EncryptVerified(m, rk, iv, P)` with its comparator as written (R122), although no input makes it fail (R123). -/
def encryptVerified (m : Mode) (rk : List Word) (iv p : Bytes) : Except CmdError Bytes :=
  match modeDecrypt m rk iv (modeEncrypt m rk iv p) with
  | .error _ => .error decryptFailed
  | .ok p' => if p' ≠ p then .error bytesDiffer else .ok (modeEncrypt m rk iv p)

/-- ENCRYPT_VERIFIED (R125). -/
def execEncryptVerified (s : State) : Host.Outcome State Fault Refusal := complete (cipherBody encryptVerified s) s

end Sys2Proof.Machine
end

