-- ==== Sys2Proof/Machine/Dispatch.lean ====
section
/-! DEFINITION. The dispatch of 40_command_execution.md R76: one arm per command, each one call of its meaning. -/

namespace Sys2Proof.Machine

def exec (i : Instr) (s : State) : Host.Outcome State Fault Refusal :=
  match i with
  | .nop => Sys2Proof.Machine.execNop s
  | .config mode klen ivlen => Sys2Proof.Machine.execConfig mode klen ivlen s
  | .configDefault klen ivlen => Sys2Proof.Machine.execConfigDefault klen ivlen s
  | .encrypt => Sys2Proof.Machine.execEncrypt s
  | .decrypt => Sys2Proof.Machine.execDecrypt s
  | .encryptVerified => Sys2Proof.Machine.execEncryptVerified s
  | .blockEnc => Sys2Proof.Machine.execBlockEnc s
  | .blockDec => Sys2Proof.Machine.execBlockDec s
  | .pad => Sys2Proof.Machine.execPad s
  | .unpad => Sys2Proof.Machine.execUnpad s
  | .clear => Sys2Proof.Machine.execClear s

end Sys2Proof.Machine
end

