-- ==== Sys2Proof/Machine/HostPort.lean ====
section
/-! DEFINITION. The host port: the address map, legality, lanes, reads and writes of 20_memory.md, and writes while busy (40_command_execution.md R74). -/

namespace Sys2Proof.Machine

/-! ### Offsets (20_memory.md R42) -/

def offCmd : Nat := 0x0000
def offStatus : Nat := 0x0004
def offError : Nat := 0x0008
def offInLen : Nat := 0x000C
def offOutLen : Nat := 0x0010
def offCaps : Nat := 0x0014
def inWindow : Nat := 0x1000
def outWindow : Nat := 0x2000

/-- The index of the DATA_IN byte at a window offset: `k` at `0x1000 + k` for `k < IN_CAP` (R42, R43). -/
def State.inIndex (s : State) (off : Nat) : Option Nat :=
  if inWindow ≤ off ∧ off < outWindow ∧ off - inWindow < s.inCap then some (off - inWindow) else none

/-- The index of the DATA_OUT byte at a window offset: `k` at `0x2000 + k` for `k < OUT_CAP` (R42, R43). -/
def State.outIndex (s : State) (off : Nat) : Option Nat :=
  if outWindow ≤ off ∧ off < 0x3000 ∧ off - outWindow < s.outCap then some (off - outWindow) else none

/-- Whether an access is legal (R45): a supported width, a 32-bit access aligned, no byte access to the register region. -/
def Access.legal (a : Access) : Bool :=
  (a.width = 8 && inWindow ≤ a.off.toNat) || (a.width = 32 && a.off.toNat % 4 = 0)

/-! ### Reads (R46, R49, R50, R51; R53: no side effect) -/

/-- A register's value (R51): CMD reads 0 (10_state.md R30), reserved offsets read 0 (R43). -/
def State.readRegister (s : State) (off : Nat) : Word :=
  if off = offStatus then s.statusWord
  else if off = offError then s.errorWord
  else if off = offInLen then s.inLen
  else if off = offOutLen then s.outLen
  else if off = offCaps then s.capsWord
  else 0

/-- The byte at a window offset at or above 0x1000, and the draw counter after it: a ⊥ cell yields the free byte of the
next draw (R49); bytes of no buffer read as 0 (R43). -/
def State.readLane (s : State) (draws off : Nat) : Byte × Nat :=
  match s.inIndex off with
  | some k =>
    match s.inByte k with
    | some v => (v, draws)
    | none => (Config.freeByte draws, draws + 1)
  | none =>
    match s.outIndex off with
    | some k => (s.outByte k, draws)
    | none => (0, draws)

/-- Four lanes at `off..off+3`, assembled little-endian, and the draw counter after them (R46). -/
def State.readLanes (s : State) (draws off : Nat) : Word × Nat :=
  let r0 := s.readLane draws off
  let r1 := s.readLane r0.2 (off + 1)
  let r2 := s.readLane r1.2 (off + 2)
  let r3 := s.readLane r2.2 (off + 3)
  (le32 r0.1 r1.1 r2.1 r3.1, r3.2)

/-- Record the response of an access. -/
def State.respond (r : Response) (s : State) : State := { s with resp := some r }

/-- Count the draws of a read. -/
def State.withDraws (n : Nat) (s : State) : State := { s with draws := n }

/-- A legal read of width `width` at `off`. -/
def State.readAccess (width off : Nat) (s : State) : State :=
  if width = 8 then
    let r := s.readLane s.draws off
    (s.withDraws r.2).respond (.okRead8 r.1)
  else if off < inWindow then s.respond (.okRead32 (s.readRegister off))
  else
    let r := s.readLanes s.draws off
    (s.withDraws r.2).respond (.okRead32 r.1)

/-! ### Writes (R43, R46, R48, R51; 40_command_execution.md R73, R74) -/

/-- A write that is ignored because the core is BUSY: no effect except `IGN <- 1` (40_command_execution.md R74). -/
def State.dropWrite (s : State) : State := { s with ign := true }

/-- `IN_LEN <- w` (R51). -/
def State.setInLen (w : Word) (s : State) : State := { s with inLen := w }

/-- `DATA_IN[k] <- v` (R48). -/
def State.storeIn (k : Nat) (v : Byte) (s : State) : State := { s with dataIn := Memory.write .dataIn s.dataIn k v }

/-- A write to a register: CMD accepts, IN_LEN stores, both dropped while BUSY; every other register ignores it (R43). -/
def State.writeRegister (off : Nat) (w : Word) (s : State) : State :=
  if off = offCmd then if s.busy then s.dropWrite else s.accept w
  else if off = offInLen then if s.busy then s.dropWrite else s.setInLen w
  else s

/-- A byte written to a window offset at or above 0x1000: DATA_IN stores it, or drops it while BUSY; everything else ignores it. -/
def State.writeLane (off : Nat) (v : Byte) (s : State) : State :=
  match s.inIndex off with
  | some k => if s.busy then s.dropWrite else s.storeIn k v
  | none => s

/-- The lanes of a write, the byte at the lowest offset first (R46). -/
def State.writeLanes (off : Nat) : Bytes → State → State
  | [], s => s
  | v :: vs, s => State.writeLanes (off + 1) vs (s.writeLane off v)

/-- A legal write of width `width` at `off`. -/
def State.writeAccess (width off : Nat) (w : Word) (s : State) : State :=
  if width = 8 then s.writeLane off (lane w 0)
  else if off < inWindow then s.writeRegister off w
  else s.writeLanes off (bytesLE w)

/-- One host access, atomic (R44, R52). An illegal one responds `BusError` and changes nothing of the core (R45). -/
def State.access (a : Access) (s : State) : State :=
  if a.legal then
    match a.dir with
    | .read => s.readAccess a.width a.off.toNat
    | .write => (s.writeAccess a.width a.off.toNat a.wdata).respond .okWrite
  else s.respond .busError

end Sys2Proof.Machine
end

