-- ==== Sys2Proof/Machine/HostProgram.lean ====
section
/-! DEFINITION. The host agent: the lines of a host program and the pseudo-instructions (30_encoding.md R70, R71). -/

namespace Sys2Proof.Machine

/-! ### Lines of the basic forms (R70) -/

def accessLine (dir : Dir) (width off : Nat) (w : Word) (bind : Option Nat) : HostLine :=
  .access ⟨dir, width, BitVec.ofNat 14 off, w⟩ bind

/-- `W32 off, value`. -/
def w32 (off : Nat) (w : Word) : HostLine := accessLine .write 32 off w none

/-- `W8 off, value`. -/
def w8 (off : Nat) (v : Byte) : HostLine := accessLine .write 8 off (v.setWidth 32) none

/-- `R32 off -> name`. -/
def r32 (off name : Nat) : HostLine := accessLine .read 32 off 0 (some name)

/-- `R8 off -> name`. -/
def r8 (off name : Nat) : HostLine := accessLine .read 8 off 0 (some name)

/-! ### Pseudo-instructions (R71) -/

/-- `ISSUE <command>`: `W32 CMD, Encode(<command>)`. -/
def issue (i : Instr) : List HostLine := [w32 offCmd (encode i)]

/-- `CONFIG <MODE>`: the command with `klen = 16` and `ivlen = 16`. -/
def configOfMode (m : Mode) : Instr := .config m.code.toNat 16 16

/-- `SETLEN n`: `W32 IN_LEN, n`. -/
def setLen (n : Word) : List HostLine := [w32 offInLen n]

/-- `LOAD k, bytes`, `k` a multiple of 4: one W32 for each full group of four bytes, one W8 for each trailing byte. -/
def load : Nat → Bytes → List HostLine
  | k, b0 :: b1 :: b2 :: b3 :: rest => w32 (inWindow + k) (le32 b0 b1 b2 b3) :: load (k + 4) rest
  | k, [b0, b1, b2] => [w8 (inWindow + k) b0, w8 (inWindow + k + 1) b1, w8 (inWindow + k + 2) b2]
  | k, [b0, b1] => [w8 (inWindow + k) b0, w8 (inWindow + k + 1) b1]
  | k, [b0] => [w8 (inWindow + k) b0]
  | _, [] => []

/-- `WAIT` placed at line `here`, with host variable `name`: `1: R32 STATUS -> s` then `BNZ s, 0x1, 1b`. -/
def wait (here name : Nat) : List HostLine := [r32 offStatus name, .bnz name 1 here]

/-- `READOUT n -> v`: `R32 DATA_OUT+4j -> v_j` for `j = 0 .. ceil(n/4) − 1`, host variable `v + j` for `v_j`. -/
def readOut (n v : Nat) : List HostLine := (List.range ((n + 3) / 4)).map (fun j => r32 (outWindow + 4 * j) (v + j))

/-! ### Running a line -/

/-- The value of a host variable: what was bound last, or a free value before (log entry 6). -/
def HostAgent.var (h : HostAgent) (name : Nat) : Word := (lookup h.vars name).getD (Config.freeHostVar name)

/-- Bind a host variable. -/
def HostAgent.bindVar (h : HostAgent) (name : Nat) (w : Word) : HostAgent := { h with vars := insertCell h.vars name w }

/-- The data a response carries; a byte is zero-extended; a BusError "returns no data" (20_memory.md R45). -/
def Response.data : Response → Option Word
  | .okRead8 b => some (b.setWidth 32)
  | .okRead32 w => some w
  | .okWrite => none
  | .busError => none

/-- Bind the data of the last response, if the line names a variable and there is data. -/
def HostAgent.bindResponse (h : HostAgent) (bind : Option Nat) (r : Option Response) : HostAgent :=
  match bind, r.bind Response.data with
  | some name, some w => h.bindVar name w
  | _, _ => h

/-- Go to a line. -/
def HostAgent.goto (h : HostAgent) (line : Nat) : HostAgent := { h with line := line }

/-- Replace the host agent. -/
def State.withHost (h : HostAgent) (s : State) : State := { s with host := h }

/-- Run one line (R70): an access, its data bound and on to the next line (after a BusError too, log entry 5); or a branch. -/
def State.runLine (l : HostLine) (s : State) : State :=
  match l with
  | .access a bind =>
    let t := s.access a
    t.withHost ((t.host.bindResponse bind t.resp).goto (s.host.line + 1))
  | .bnz name mask target =>
    s.withHost (s.host.goto (if s.host.var name &&& mask ≠ 0 then target else s.host.line + 1))

/-- The host's step: its next line; nothing once the program has ended (60_exceptions.md R140). -/
def State.hostStep (s : State) : State :=
  match s.host.prog[s.host.line]? with
  | some l => s.runLine l
  | none => s

end Sys2Proof.Machine
end

