-- ==== Sys2Proof/Machine/Agents.lean ====
section
/-! DEFINITION. Who moves, and the core's step (40_command_execution.md R72, R75, R76). -/

namespace Sys2Proof.Machine

/-- Who moves next: as `turns` says; once it is used up, the core if BUSY (its completion is weakly fair,
70_reset_and_hazards.md R152), else the host (log entry 2). -/
def State.nextTurn (s : State) : Turn :=
  match s.turns with
  | t :: _ => t
  | [] => if s.busy then .core else .host

/-- Use up the turn. -/
def State.endTurn (s : State) : State := { s with turns := s.turns.tail }

/-- `Exec(PEND, S)` applied (40_command_execution.md R75, R76): decode the accepted word, at completion, and run it; an illegal word
completes with ILLEGAL_COMMAND and no other effect (30_encoding.md R68, R69). -/
def completion (s : State) : Host.Outcome State Fault Refusal :=
  match decode s.pend with
  | .instr i => exec i s
  | .illegal r => complete (.failure (illegalCommand r)) s

/-- The core's step: completion, "enabled iff `BUSY = 1`"; nothing when it is idle (60_exceptions.md R140). -/
def coreStep (s : State) : Host.Outcome State Fault Refusal :=
  if s.busy then completion s else .next s

/-- One step of the agent whose turn it is. -/
def stepOf (t : Turn) (s : State) : Host.Outcome State Fault Refusal :=
  match t with
  | .core => coreStep s
  | .host => .next s.hostStep
  | .reset => .next s.assertReset

/-- The word accepted and the core's turn next: where the core takes its next command from (log entry 10). -/
def State.placeCommand (w : Word) (s : State) : State := { s.accept w with turns := .core :: s.turns }

end Sys2Proof.Machine
end

