-- ==== Sys2Proof/Machine/Step.lean ====
section
/-! DEFINITION. One step of the machine, and a command placed where the next step runs it. -/

namespace Sys2Proof.Machine

/-- One step: the agent whose turn it is moves, in the state with that turn used up. -/
def step (s : State) : Host.Outcome State Fault Refusal := stepOf s.nextTurn s.endTurn

/-- `s` with the command word `w` (its bits above `nbits` zero) accepted and the core's turn next, so that `step` completes exactly it.
The core fetches nothing (20_memory.md R57): this stands for the host's write of `w` to CMD while idle (log entry 10). -/
def State.withFetchWord (s : State) (nbits w : Nat) : State := s.placeCommand (BitVec.ofNat 32 (w % 2 ^ nbits))

end Sys2Proof.Machine
end

