-- ==== Sys2Proof/Safety.lean ====
section
/-! DEFINITION. The terms claims are stated in: a safe step, the bytes a command reads, the invariants of the machine, and what
a step changes and leaves unchanged. -/

namespace Sys2Proof.Machine

/-! ### Safety: when a command runs without the model fault UnwrittenInput (60_exceptions.md R132) -/

/-- How many bytes of DATA_IN, from index 0, a command may read: "`0..IN_LEN` for data commands and `0..32` for CONFIG"
(70_reset_and_hazards.md R145); one block for BLOCK_ENC and BLOCK_DEC (42_block_transform.md R97). -/
def inputBytes (i : Instr) (s : State) : Nat :=
  match i with
  | .nop | .clear => 0
  | .config _ _ _ | .configDefault _ _ => 32
  | .blockEnc | .blockDec => 16
  | .encrypt | .decrypt | .encryptVerified | .pad | .unpad => s.inLen.toNat

/-- The first `n` bytes of DATA_IN have been written since reset. -/
def State.InputWritten (s : State) (n : Nat) : Prop := ∀ k < n, s.inByte k ≠ none

/-- A step is safe: it answers a next state. -/
def SafeStep (s : State) : Prop := ∃ t, step s = .next t

/-- The payload of a data command: `P = MemRead(0, S.IN_LEN)`, byte `k` of the message being DATA_IN[k] (20_memory.md R60). -/
def State.Payload (s : State) (p : Bytes) : Prop :=
  p.length = s.inLen.toNat ∧ ∀ k < p.length, s.inByte k = some (byteAt p k)

/-- The 16 bytes of DATA_IN from index `k` on are the block `b`. -/
def State.BlockAt (s : State) (k : Nat) (b : Bytes) : Prop :=
  b.length = 16 ∧ ∀ j < 16, s.inByte (k + j) = some (byteAt b j)

/-! ### Blocks and chunks of a message (44_mode_drivers.md R105) -/

/-- `Q_i = Q[16i .. 16i+16)`, and `P_i`, which the sequence's end may cut short. -/
def pieceAt (q : Bytes) (i : Nat) : Bytes := (q.drop (16 * i)).take 16

/-- `C_{i−1}`, with `C_{−1} = IV` (44_mode_drivers.md R109, R111). -/
def previousBlock (iv c : Bytes) : Nat → Bytes
  | 0 => iv
  | i + 1 => pieceAt c i

/-! ### Invariants -/

/-- 10_state.md R29: a configured core holds the round keys of its key; an unconfigured one holds zeros. KEY and IV are blocks. -/
def State.EngineOk (s : State) : Prop :=
  (s.cfg = .configured → s.rk = keyExpand s.key ∧ s.key.length = 16 ∧ s.iv.length = 16) ∧
  (s.cfg = .unconfigured →
    s.key = List.replicate 16 0 ∧ s.iv = List.replicate 16 0 ∧ s.rk = List.replicate 32 0 ∧ s.mode = .ecb)

/-- Both buffers are in canonical form. -/
def State.MemoryOk (s : State) : Prop := Memory.wf .dataIn s.dataIn ∧ Memory.wf .dataOut s.dataOut

/-- The buffers' bounds: DATA_IN has IN_CAP cells (10_state.md R36); "Bytes at index `>= OUT_LEN` are 0" (R37); OUT_LEN is at most OUT_CAP (R34). -/
def State.BoundsOk (s : State) : Prop :=
  (∀ k, s.inCap ≤ k → s.inByte k = none) ∧ (∀ k, s.outLen.toNat ≤ k → s.outByte k = 0) ∧ s.outLen.toNat ≤ s.outCap

/-- 10_state.md R31, R34, 60_exceptions.md R126, R127: BUSY and DONE exclude each other, and so do ERR and OUT_VALID; OUT_LEN is 0 unless OUT_VALID;
CODE is at most 6; with CODE 0, DETAIL is 0. -/
def State.StatusOk (s : State) : Prop :=
  ¬(s.busy = true ∧ s.done = true) ∧ ¬(s.errFlag = true ∧ s.outValid = true) ∧ (s.outValid = false → s.outLen = 0) ∧
  s.errCode.toNat ≤ 6 ∧ (s.errCode = 0 → s.errDetail = 0)

/-- While BUSY, the outputs hold their acceptance values (40_command_execution.md R74). -/
def State.BusyOk (s : State) : Prop :=
  s.busy = true → s.errCode = 0 ∧ s.errDetail = 0 ∧ s.outValid = false ∧ s.outLen = 0 ∧ s.dataOut = []

/-- The invariant of the machine. -/
structure State.Inv (s : State) : Prop where
  capacity : inCapLegal s.inCap = true
  engine : s.EngineOk
  memory : s.MemoryOk
  bounds : s.BoundsOk
  status : s.StatusOk
  busy : s.BusyOk
  vars : keysRise s.host.vars

/-! ### What a step changes and what it leaves unchanged -/

/-- CFG, KEY, IV, MODE and RK are unchanged. -/
def EngineUnchanged (s t : State) : Prop :=
  t.cfg = s.cfg ∧ t.key = s.key ∧ t.iv = s.iv ∧ t.mode = s.mode ∧ t.rk = s.rk

/-- IN_LEN and every byte of DATA_IN are unchanged. -/
def InputsUnchanged (s t : State) : Prop := t.inLen = s.inLen ∧ ∀ k, t.inByte k = s.inByte k

/-- OUT_VALID, OUT_LEN and every byte of DATA_OUT are unchanged. -/
def OutputUnchanged (s t : State) : Prop :=
  t.outValid = s.outValid ∧ t.outLen = s.outLen ∧ ∀ k, t.outByte k = s.outByte k

/-- ERROR is unchanged. -/
def ErrorUnchanged (s t : State) : Prop := t.errCode = s.errCode ∧ t.errDetail = s.errDetail

/-- PEND, IGN, IN_CAP and the model's own fields are unchanged. -/
def OutsideUnchanged (s t : State) : Prop :=
  t.pend = s.pend ∧ t.ign = s.ign ∧ t.inCap = s.inCap ∧ t.resp = s.resp ∧ t.draws = s.draws ∧ t.host = s.host ∧ t.turns = s.turns

/-- The command ended: `BUSY <- 0; DONE <- 1` (40_command_execution.md R75). -/
def Ended (t : State) : Prop := t.busy = false ∧ t.done = true

/-- From `s` to `t` the command completed with result `out` and changed nothing else: DATA_OUT[0..len(out)) holds it, every other
byte of DATA_OUT is as before. -/
def GivesOutput (s t : State) (out : Bytes) : Prop :=
  Ended t ∧ t.outValid = true ∧ t.outLen = BitVec.ofNat 32 out.length ∧
  (∀ k < out.length, t.outByte k = byteAt out k) ∧ (∀ k, out.length ≤ k → t.outByte k = s.outByte k) ∧
  ErrorUnchanged s t ∧ EngineUnchanged s t ∧ InputsUnchanged s t ∧ OutsideUnchanged s t

/-- From `s` to `t` the command completed without a result; the engine instance apart, nothing else changed. -/
def GivesNothing (s t : State) : Prop :=
  Ended t ∧ t.outValid = false ∧ t.outLen = 0 ∧ (∀ k, t.outByte k = s.outByte k) ∧
  ErrorUnchanged s t ∧ InputsUnchanged s t ∧ OutsideUnchanged s t

/-- From `s` to `t` the command completed with the error `code`, `detail`, and changed nothing else (60_exceptions.md R128). -/
def ReportsError (s t : State) (code : BitVec 4) (detail : BitVec 8) : Prop :=
  Ended t ∧ t.errCode = code ∧ t.errDetail = detail ∧
  EngineUnchanged s t ∧ InputsUnchanged s t ∧ OutputUnchanged s t ∧ OutsideUnchanged s t

/-- `exec i s` answers a next state in which the command has reported that error. -/
def FailsWith (i : Instr) (s : State) (code : BitVec 4) (detail : BitVec 8) : Prop :=
  ∃ t, exec i s = .next t ∧ ReportsError s t code detail

/-- The commands that use the engine instance (70_reset_and_hazards.md R148). -/
def isCipher : Instr → Bool
  | .encrypt | .decrypt | .encryptVerified | .blockEnc | .blockDec => true
  | .nop | .config _ _ _ | .configDefault _ _ | .pad | .unpad | .clear => false

/-- CONFIG in either form. -/
def isConfig : Instr → Bool
  | .config _ _ _ | .configDefault _ _ => true
  | .nop | .encrypt | .decrypt | .encryptVerified | .blockEnc | .blockDec | .pad | .unpad | .clear => false

end Sys2Proof.Machine
end

