-- ==== Sys2Proof/Certificates/Slice0/Obligations.lean ====
section
/-! DEFINITION. The statements for the provers, each formalising rules of spec/ named in its docstring and in OBLIGATIONS.json. -/

open Sys2Proof Sys2Proof.Machine

/-! ### Encoding (30_encoding.md) -/

/-- Every well-formed command is decoded from its own word: no field of formats P and C is dropped (30_encoding.md sections 1 to 4). -/
def Obligations.DecodeOfEncode : Prop := ∀ i : Instr, i.wf = true → decode (encode i) = .instr i

/-- Every word the decoder accepts is the word of the command it gives, and that command is well-formed (30_encoding.md sections 1 to 4). -/
def Obligations.EncodeOfDecode : Prop := ∀ (w : Word) (i : Instr), decode w = .instr i → i.wf = true ∧ encode i = w

/-- 30_encoding.md R69: the illegal encodings, by the word's value: opcodes 0xA..0xF are RESERVED_OPCODE; otherwise a nonzero bit in 31:4 (format P)
or in 31:19 (CONFIG), or CONFIG with MP = 0 and MODE ≠ 0, is RESERVED_BITS. -/
def Obligations.IllegalWordsExactly : Prop :=
  ∀ w : Word,
    (decode w = .illegal .reservedOpcode ↔ 10 ≤ w.toNat % 16) ∧
    (decode w = .illegal .reservedBits ↔
      w.toNat % 16 < 10 ∧
        ((w.toNat % 16 ≠ 1 ∧ w.toNat / 2 ^ 4 ≠ 0) ∨
         (w.toNat % 16 = 1 ∧ (w.toNat / 2 ^ 19 ≠ 0 ∨ (w.toNat / 2 ^ 8 % 2 = 0 ∧ w.toNat / 2 ^ 4 % 16 ≠ 0)))))

/-- The CONFIG words a host normally writes (30_encoding.md R67), in both directions, and a few more words, which decode to what the spec says they are
(30_encoding.md section 3; 95_test_vectors.md section 7, Decoding). -/
def Obligations.SpecWordsDecode : Prop :=
  (decode 0x00042101 = .instr (.config 0 16 16) ∧ encode (.config 0 16 16) = 0x00042101 ∧
    decode 0x00042111 = .instr (.config 1 16 16) ∧ encode (.config 1 16 16) = 0x00042111 ∧
    decode 0x00042121 = .instr (.config 2 16 16) ∧ encode (.config 2 16 16) = 0x00042121 ∧
    decode 0x00042131 = .instr (.config 3 16 16) ∧ encode (.config 3 16 16) = 0x00042131 ∧
    decode 0x00042001 = .instr (.configDefault 16 16) ∧ encode (.configDefault 16 16) = 0x00042001) ∧
  decode 0x00000000 = .instr .nop ∧ decode 0x00000002 = .instr .encrypt ∧ decode 0x00000003 = .instr .decrypt ∧
  decode 0x00000004 = .instr .encryptVerified ∧ decode 0x00000005 = .instr .blockEnc ∧ decode 0x00000006 = .instr .blockDec ∧
  decode 0x00000007 = .instr .pad ∧ decode 0x00000008 = .instr .unpad ∧ decode 0x00000009 = .instr .clear ∧
  decode 0x0000000A = .illegal .reservedOpcode ∧ decode 0xFFFFFFFF = .illegal .reservedOpcode ∧
  decode 0x00000012 = .illegal .reservedBits ∧ decode 0x000C2111 = .illegal .reservedBits ∧ decode 0x00042011 = .illegal .reservedBits

/-! ### Steps (40_command_execution.md R72, R75, R76; 70_reset_and_hazards.md R141) -/

/-- A step runs the decoded command: when it is the core's turn and the core is BUSY, the step is the meaning of the command in PEND, in the
state with the turn used up and nothing else changed. -/
def Obligations.StepRunsDecodedCommand : Prop :=
  ∀ (s : State) (i : Instr), s.nextTurn = .core → s.busy = true → decode s.pend = .instr i →
    step s = exec i { s with turns := s.turns.tail }

/-- A command placed for the core runs in the next step, from the state its acceptance leaves. -/
def Obligations.PlacedCommandRuns : Prop :=
  ∀ (s : State) (i : Instr), i.wf = true → step (s.withFetchWord 32 (encode i).toNat) = exec i (s.accept (encode i))

/-- An illegal word completes with ILLEGAL_COMMAND, detail 1 or 2, and no other effect (30_encoding.md section 4). -/
def Obligations.IllegalWordCompletes : Prop :=
  ∀ (s : State) (r : IllegalReason), s.nextTurn = .core → s.busy = true → decode s.pend = .illegal r →
    ∃ t, step s = .next t ∧
      ReportsError s.endTurn t 5 (match r with | .reservedOpcode => 1 | .reservedBits => 2)

/-- THE MODEL'S CHOICE (log entry 2; for the reset clause also log entries 6 and 10): the turn of an agent with nothing to do, a core that is not BUSY or a
host at the end of its program, is used up and changes nothing else, so the machine after reset, with nothing placed, stays as it is. The spec says only
which steps are enabled, and that nothing else acts (40_command_execution.md section 2; 60_exceptions.md section 5). -/
def Obligations.IdleMachineStays : Prop :=
  (∀ s : State, s.nextTurn = .core → s.busy = false → step s = .next s.endTurn) ∧
  (∀ s : State, s.nextTurn = .host → s.host.prog[s.host.line]? = none → step s = .next s.endTurn) ∧
  step State.reset = .next State.reset

/-- A host line that is a bus access performs that access, goes on to the next line and touches nothing else but the variable it names: a read's data is
bound to that variable, a byte zero-extended, and every other variable is as before; a write and a BusError bind nothing. A BNZ line performs no access
and goes to its target exactly if `(name & mask) ≠ 0` (30_encoding.md section 5). The host agent is the model's (log entries 5 and 6): what `lookup` finds
in `vars` is what a variable is bound to, that a byte is zero-extended, and that the host goes on after a BusError. -/
def Obligations.HostLineRuns : Prop :=
  (∀ (s : State) (a : Access) (bind : Option Nat), s.nextTurn = .host → s.host.prog[s.host.line]? = some (.access a bind) →
    ∃ t, step s = .next t ∧ t = { s.endTurn.access a with host := t.host } ∧
      t.host = { s.host with line := s.host.line + 1, vars := t.host.vars } ∧
      (∀ name w, bind = some name → (t.resp = some (.okRead32 w) ∨ ∃ b : Byte, t.resp = some (.okRead8 b) ∧ w = b.setWidth 32) →
        lookup t.host.vars name = some w ∧ ∀ x, x ≠ name → lookup t.host.vars x = lookup s.host.vars x) ∧
      (bind = none ∨ t.resp = some .okWrite ∨ t.resp = some .busError → t.host.vars = s.host.vars)) ∧
  (∀ (s : State) (name : Nat) (mask : Word) (target : Nat), s.nextTurn = .host →
    s.host.prog[s.host.line]? = some (.bnz name mask target) →
    ∃ t, step s = .next t ∧ t = { s.endTurn with host := { s.host with line := t.host.line } } ∧
      (s.host.var name &&& mask ≠ 0 → t.host.line = target) ∧
      (s.host.var name &&& mask = 0 → t.host.line = s.host.line + 1))

/-- 70_reset_and_hazards.md section 1: asserting reset, in any state, BUSY included, gives every component its reset value; IN_CAP stays. -/
def Obligations.ResetEffects : Prop :=
  ∀ s : State, s.nextTurn = .reset →
    ∃ t, step s = .next t ∧
      t.cfg = .unconfigured ∧ t.key = List.replicate 16 0 ∧ t.iv = List.replicate 16 0 ∧ t.mode = .ecb ∧ t.rk = List.replicate 32 0 ∧
      t.busy = false ∧ t.done = false ∧ t.ign = false ∧ t.outValid = false ∧ t.errCode = 0 ∧ t.errDetail = 0 ∧
      t.inLen = 0 ∧ t.outLen = 0 ∧ t.pend = 0 ∧ (∀ k, t.inByte k = none) ∧ (∀ k, t.outByte k = 0) ∧
      t.statusWord = 0 ∧ t.errorWord = 0 ∧ t.inCap = s.inCap

/-- "Reset is the only event that returns DATA_IN cells to `⊥`" (70_reset_and_hazards.md section 1). -/
def Obligations.OnlyResetUnwritesInput : Prop :=
  ∀ s t : State, step s = .next t → s.nextTurn ≠ .reset → ∀ k, s.inByte k ≠ none → t.inByte k ≠ none

/-- Every accepted command completes after finitely many steps (70_reset_and_hazards.md section 4): once the turns are used up, and one step later, a busy
core has come to BUSY = 0, or the command has taken the model fault. The order of turns is the model's (log entry 2). -/
def Obligations.BusyCoreCompletes : Prop :=
  ∀ s : State, s.busy = true →
    ∃ k ≤ s.turns.length + 1,
      (∃ t, Host.Core.run core k s = .next t ∧ t.busy = false) ∨ (∃ f, Host.Core.run core k s = .fault f)

/-! ### Faults (60_exceptions.md R129, R132) -/

/-- The model stops only by UnwrittenInput, at the completion of a command, and only if that command may read a cell that holds ⊥
(60_exceptions.md section 3; 70_reset_and_hazards.md section 3). -/
def Obligations.OnlyUnwrittenInputFaults : Prop :=
  ∀ (s : State) (f : Fault), step s = .fault f →
    f = .unwrittenInput ∧ s.nextTurn = .core ∧ s.busy = true ∧
      ∃ i, decode s.pend = .instr i ∧ ∃ k < inputBytes i s, s.inByte k = none

/-- 60_exceptions.md R132: a command whose MemRead covers a ⊥ cell takes the model fault, when the checks before the read pass. -/
def Obligations.UnwrittenInputFaults : Prop :=
  (∀ (s : State) (m : Mode), s.cfg = .unconfigured → ¬ s.InputWritten 32 →
    exec (.config m.code.toNat 16 16) s = .fault .unwrittenInput ∧ exec (.configDefault 16 16) s = .fault .unwrittenInput) ∧
  (∀ s : State, s.cfg = .configured → s.inLen.toNat ≤ s.inCap → ¬ s.InputWritten s.inLen.toNat →
    exec .encrypt s = .fault .unwrittenInput ∧ exec .decrypt s = .fault .unwrittenInput ∧
      exec .encryptVerified s = .fault .unwrittenInput) ∧
  (∀ s : State, s.cfg = .configured → s.inLen = 16 → ¬ s.InputWritten 16 →
    exec .blockEnc s = .fault .unwrittenInput ∧ exec .blockDec s = .fault .unwrittenInput) ∧
  (∀ s : State, s.inLen.toNat ≤ s.inCap → ¬ s.InputWritten s.inLen.toNat →
    exec .pad s = .fault .unwrittenInput ∧ exec .unpad s = .fault .unwrittenInput)

/-- No error halts or locks the core: a command whose input bytes are written always ends, with BUSY = 0 and DONE = 1 (60_exceptions.md section 2). -/
def Obligations.EveryCommandEnds : Prop :=
  ∀ (i : Instr) (s : State), s.InputWritten (inputBytes i s) → ∃ t, exec i s = .next t ∧ Ended t

/-- No step is refused: every word and every host access has a meaning (30_encoding.md section 4; 20_memory.md section 2). -/
def Obligations.NoStepRefuses : Prop := ∀ (s : State) (r : Refusal), step s ≠ .refused r

/-! ### The commands' results (40 to 45) -/

/-- NOP completes with no result and nothing else changed; CLEAR completes, destroys the engine instance and changes nothing else
(40_command_execution.md sections 4 and 5). -/
def Obligations.NopAndClearResults : Prop :=
  ∀ s : State,
    (∃ t, exec .nop s = .next t ∧ GivesNothing s t ∧ EngineUnchanged s t) ∧
    (∃ t, exec .clear s = .next t ∧ GivesNothing s t ∧
      t.cfg = .unconfigured ∧ t.key = List.replicate 16 0 ∧ t.iv = List.replicate 16 0 ∧ t.mode = .ecb ∧ t.rk = List.replicate 32 0)

/-- CONFIG with 16 key bytes and 16 IV bytes, on an unconfigured core whose DATA_IN[0..32) is written, creates the engine instance, in the mode of its
code, or in ECB when no mode is given (41_key_schedule.md section 6; 30_encoding.md section 2). -/
def Obligations.ConfigResult : Prop :=
  ∀ (s : State) (m : Mode) (key iv : Bytes), s.cfg = .unconfigured → s.BlockAt 0 key → s.BlockAt 16 iv →
    (∃ t, exec (.config (match m with | .ecb => 0 | .cbc => 1 | .cfb => 2 | .ofb => 3) 16 16) s = .next t ∧ GivesNothing s t ∧
      t.cfg = .configured ∧ t.key = key ∧ t.iv = iv ∧ t.mode = m ∧ t.rk = keyExpand key) ∧
    (∃ t, exec (.configDefault 16 16) s = .next t ∧ GivesNothing s t ∧
      t.cfg = .configured ∧ t.key = key ∧ t.iv = iv ∧ t.mode = .ecb ∧ t.rk = keyExpand key)

/-- CONFIG's errors on an unconfigured core, the first that applies in the order of its checks (41_key_schedule.md section 6; 60_exceptions.md section 2). -/
def Obligations.ConfigErrors : Prop :=
  ∀ (s : State) (mode klen ivlen : Nat),
    (s.cfg = .unconfigured → klen = 0 → FailsWith (.config mode klen ivlen) s 1 1 ∧ FailsWith (.configDefault klen ivlen) s 1 1) ∧
    (s.cfg = .unconfigured → klen ≠ 0 → klen ≠ 16 →
      FailsWith (.config mode klen ivlen) s 1 2 ∧ FailsWith (.configDefault klen ivlen) s 1 2) ∧
    (s.cfg = .unconfigured → klen = 16 → ivlen = 0 →
      FailsWith (.config mode klen ivlen) s 1 3 ∧ FailsWith (.configDefault klen ivlen) s 1 3) ∧
    (s.cfg = .unconfigured → klen = 16 → ivlen ≠ 0 → ivlen ≠ 16 →
      FailsWith (.config mode klen ivlen) s 1 4 ∧ FailsWith (.configDefault klen ivlen) s 1 4) ∧
    (s.cfg = .unconfigured → klen = 16 → ivlen = 16 → 4 ≤ mode → mode < 16 →
      FailsWith (.config mode klen ivlen) s 3 (BitVec.ofNat 8 mode))

/-- 70_reset_and_hazards.md R148: a cipher command on an unconfigured core fails with CONFIGURATION(NOT_CONFIGURED), a CONFIG on a configured one with
CONFIGURATION(ALREADY_CONFIGURED). -/
def Obligations.ConfigurationStateErrors : Prop :=
  ∀ (i : Instr) (s : State),
    (isCipher i = true → s.cfg = .unconfigured → FailsWith i s 1 5) ∧
    (isConfig i = true → s.cfg = .configured → FailsWith i s 1 6)

/-- A payload longer than IN_CAP fails with LENGTH(EXCEEDS_CAPACITY) in every command that checks it, and a block command without exactly 16
bytes with LENGTH(NOT_ONE_BLOCK) (40_command_execution.md section 3; 42_block_transform.md section 3). -/
def Obligations.LengthErrors : Prop :=
  ∀ s : State,
    (s.inCap < s.inLen.toNat → s.cfg = .configured →
      FailsWith .encrypt s 6 1 ∧ FailsWith .decrypt s 6 1 ∧ FailsWith .encryptVerified s 6 1) ∧
    (s.inCap < s.inLen.toNat → FailsWith .pad s 6 1 ∧ FailsWith .unpad s 6 1) ∧
    (s.inLen ≠ 16 → s.cfg = .configured → FailsWith .blockEnc s 6 2 ∧ FailsWith .blockDec s 6 2)

/-- ENCRYPT on a configured core, with a payload that fits and is written, gives the ciphertext of the mode in force (44_mode_drivers.md section 7). -/
def Obligations.EncryptResult : Prop :=
  ∀ (s : State) (p : Bytes), s.cfg = .configured → s.inLen.toNat ≤ s.inCap → s.Payload p →
    ∃ t, exec .encrypt s = .next t ∧ GivesOutput s t (modeEncrypt s.mode s.rk s.iv p)

/-- DECRYPT likewise gives the plaintext, or reports the PADDING error of the mode's decryption and gives no output (44_mode_drivers.md section 7). -/
def Obligations.DecryptResult : Prop :=
  ∀ (s : State) (c : Bytes), s.cfg = .configured → s.inLen.toNat ≤ s.inCap → s.Payload c →
    (∀ p, modeDecrypt s.mode s.rk s.iv c = .ok p → ∃ t, exec .decrypt s = .next t ∧ GivesOutput s t p) ∧
    (∀ e, modeDecrypt s.mode s.rk s.iv c = .error e →
      FailsWith .decrypt s 2 e.detail ∧ (s.mode = .ecb ∨ s.mode = .cbc))

/-- ENCRYPT_VERIFIED gives exactly the ciphertext ENCRYPT gives: the round trip always matches (45_verifier.md section 2). -/
def Obligations.EncryptVerifiedResult : Prop :=
  ∀ (s : State) (p : Bytes), s.cfg = .configured → s.iv.length = 16 → s.inLen.toNat ≤ s.inCap → s.Payload p →
    ∃ t, exec .encryptVerified s = .next t ∧ GivesOutput s t (modeEncrypt s.mode s.rk s.iv p)

/-- BLOCK_ENC and BLOCK_DEC transform the one block of the payload with the configured round keys (42_block_transform.md section 3). -/
def Obligations.BlockCommandResults : Prop :=
  ∀ (s : State) (b : Bytes), s.cfg = .configured → s.inLen = 16 → s.BlockAt 0 b →
    (∃ t, exec .blockEnc s = .next t ∧ GivesOutput s t (blockEncrypt s.rk b)) ∧
    (∃ t, exec .blockDec s = .next t ∧ GivesOutput s t (blockDecrypt s.rk b))

/-- PAD appends `n` bytes of value `n`, `n = 16 − (len mod 16)`, in either CFG state (43_padding.md sections 1 and 2). -/
def Obligations.PadResult : Prop :=
  ∀ (s : State) (p : Bytes), s.inLen.toNat ≤ s.inCap → s.Payload p →
    ∃ t, exec .pad s = .next t ∧
      GivesOutput s t (p ++ List.replicate (16 - p.length % 16) (BitVec.ofNat 8 (16 - p.length % 16)))

/-- UNPAD strips valid padding, and otherwise reports PADDING with the detail of the first check that fails (43_padding.md sections 1 and 2). -/
def Obligations.UnpadResult : Prop :=
  ∀ (s : State) (q : Bytes), s.inLen.toNat ≤ s.inCap → s.Payload q →
    let n := (byteAt q (q.length - 1)).toNat
    (q.length = 0 ∨ q.length % 16 ≠ 0 → FailsWith .unpad s 2 1) ∧
    (q.length ≠ 0 → q.length % 16 = 0 → n = 0 ∨ 16 < n → FailsWith .unpad s 2 2) ∧
    (q.length ≠ 0 → q.length % 16 = 0 → n ≠ 0 → n ≤ 16 → (∃ k, q.length - n ≤ k ∧ k < q.length ∧ (byteAt q k).toNat ≠ n) →
      FailsWith .unpad s 2 3) ∧
    (q.length ≠ 0 → q.length % 16 = 0 → n ≠ 0 → n ≤ 16 → (∀ k, q.length - n ≤ k → k < q.length → (byteAt q k).toNat = n) →
      ∃ t, exec .unpad s = .next t ∧ GivesOutput s t (q.take (q.length - n)))

/-! ### The cipher (41, 42, 43, 44, 45) -/

/-- KeyExpand gives 32 round keys `K4..K35`, with `K_j = MK_j ⊕ FK_j` for `j = 0..3` and
`K_{i+4} = K_i ⊕ T'(K_{i+1} ⊕ K_{i+2} ⊕ K_{i+3} ⊕ CK_i)` (41_key_schedule.md section 5). The constants are the binding of log entry 7. -/
def Obligations.KeyExpandRecurrence : Prop :=
  ∀ key : Bytes,
    let K : List Word :=
      [wordAt key 0 ^^^ 0xA3B1BAC6, wordAt key 1 ^^^ 0x56AA3350, wordAt key 2 ^^^ 0x677D9197, wordAt key 3 ^^^ 0xB27022DC] ++ keyExpand key
    (keyExpand key).length = 32 ∧
    ∀ i < 32, K.getD (i + 4) 0 =
      K.getD i 0 ^^^ transKey (K.getD (i + 1) 0 ^^^ K.getD (i + 2) 0 ^^^ K.getD (i + 3) 0 ^^^ ck i)

/-- Rounds with 32 words: the words `X0..X35` of the block transform and its output in reversed word order (42_block_transform.md section 2). -/
def Obligations.RoundsRecurrence : Prop :=
  ∀ (ks : List Word) (b : Bytes), ks.length = 32 →
    ∃ X : List Word, X.length = 36 ∧ (∀ j < 4, X.getD j 0 = wordAt b j) ∧
      (∀ i < 32, X.getD (i + 4) 0 =
        X.getD i 0 ^^^ transBlock (X.getD (i + 1) 0 ^^^ X.getD (i + 2) 0 ^^^ X.getD (i + 3) 0 ^^^ ks.getD i 0)) ∧
      rounds ks b = bytesBE (X.getD 35 0) ++ bytesBE (X.getD 34 0) ++ bytesBE (X.getD 33 0) ++ bytesBE (X.getD 32 0)

/-- The word transforms: SBOX is a permutation, τ substitutes each byte lane by itself, L' and L are the XOR of the rotations R85 and R91 give, with
`x <<< n = (x << n | x >> (32 − n))` as 00_scope.md R17 has it, and both are linear (41_key_schedule.md sections 2 and 3; 42_block_transform.md section 1;
95_test_vectors.md V-PR-1, V-PR-2). The rotation counts are the binding of log entry 7. -/
def Obligations.WordTransforms : Prop :=
  Function.Bijective sbox ∧ (∀ (a : Word) (j : Nat), j < 4 → lane (tau a) j = sbox (lane a j)) ∧
  (∀ b : Word, linKey b = b ^^^ (b <<< 13 ||| b >>> 19) ^^^ (b <<< 23 ||| b >>> 9)) ∧
  (∀ b : Word, linBlock b =
    b ^^^ (b <<< 2 ||| b >>> 30) ^^^ (b <<< 10 ||| b >>> 22) ^^^ (b <<< 18 ||| b >>> 14) ^^^ (b <<< 24 ||| b >>> 8)) ∧
  (∀ a b : Word, linKey (a ^^^ b) = linKey a ^^^ linKey b) ∧ (∀ a b : Word, linBlock (a ^^^ b) = linBlock a ^^^ linBlock b)

/-- The standard's example: key and block 0123456789abcdeffedcba9876543210 (42_block_transform.md section 2; 95_test_vectors.md V-KS-1, V-BT-1, V-BT-2).
The values rest on the binding of SBOX, FK, CK, the rotations and the byte order to SM4's (log entry 7, DEDUCED; 93_implementation_defined.md G1 to G7),
which the spec takes from general knowledge. -/
def Obligations.StandardExample : Prop :=
  let std : Bytes := [0x01, 0x23, 0x45, 0x67, 0x89, 0xab, 0xcd, 0xef, 0xfe, 0xdc, 0xba, 0x98, 0x76, 0x54, 0x32, 0x10]
  let ct : Bytes := [0x68, 0x1e, 0xdf, 0x34, 0xd2, 0x06, 0x96, 0x5e, 0x86, 0xb3, 0xe9, 0x4f, 0x53, 0x6e, 0x42, 0x46]
  (keyExpand std).getD 0 0 = 0xF12186F9 ∧ (keyExpand std).getD 31 0 = 0x9124A012 ∧
  blockEncrypt (keyExpand std) std = ct ∧ blockDecrypt (keyExpand std) ct = std

/-- 42_block_transform.md R96: BlockDecrypt and BlockEncrypt invert each other on every block, for any round keys. -/
def Obligations.BlockRoundTrip : Prop :=
  ∀ (rk : List Word) (b : Bytes), b.length = 16 →
    blockDecrypt rk (blockEncrypt rk b) = b ∧ blockEncrypt rk (blockDecrypt rk b) = b

/-- 43_padding.md R101: Unpad inverts Pad, and Pad rebuilds what Unpad accepted. -/
def Obligations.PadUnpadInverse : Prop :=
  (∀ p : Bytes, unpad (pad p) = .ok p) ∧ (∀ q p : Bytes, unpad q = .ok p → pad p = q)

/-- 44_mode_drivers.md R116: the lengths of the ciphertexts. -/
def Obligations.CiphertextLengths : Prop :=
  ∀ (rk : List Word) (iv p : Bytes),
    (modeEncrypt .ecb rk iv p).length = 16 * (p.length / 16 + 1) ∧ (modeEncrypt .cbc rk iv p).length = 16 * (p.length / 16 + 1) ∧
    (modeEncrypt .cfb rk iv p).length = p.length ∧ (modeEncrypt .ofb rk iv p).length = p.length

/-- 44_mode_drivers.md R117: decryption undoes encryption in every mode. -/
def Obligations.ModeRoundTrip : Prop :=
  ∀ (m : Mode) (rk : List Word) (iv p : Bytes), iv.length = 16 → modeDecrypt m rk iv (modeEncrypt m rk iv p) = .ok p

/-- 45_verifier.md R123: the verifier always accepts, ENCRYPT_VERIFIED has the outcome of ENCRYPT, and VERIFICATION_MISMATCH (code 4) is never reported. -/
def Obligations.VerifierNeverMismatches : Prop :=
  (∀ (m : Mode) (rk : List Word) (iv p : Bytes), iv.length = 16 → encryptVerified m rk iv p = .ok (modeEncrypt m rk iv p)) ∧
  (∀ s : State, s.iv.length = 16 → exec .encryptVerified s = exec .encrypt s) ∧
  (∀ s t : State, s.iv.length = 16 → exec .encryptVerified s = .next t → s.errCode ≠ 4 → t.errCode ≠ 4)

/-- ECB (44_mode_drivers.md R106, R107, R108). Block `i` of the ciphertext is `E` of block `i` of `Pad(P)`, so identical plaintext blocks under the same key
always give identical ciphertext blocks, in one message or in two. Decryption reports PADDING(LENGTH) for a length that is no nonzero multiple of 16, and
otherwise unpads the blocks `D(C_i)`. The IV does not matter. -/
def Obligations.EcbRepeatsBlocks : Prop :=
  (∀ (rk : List Word) (iv p : Bytes),
    (modeEncrypt .ecb rk iv p).length = (pad p).length ∧
    ∀ i < (pad p).length / 16, pieceAt (modeEncrypt .ecb rk iv p) i = blockEncrypt rk (pieceAt (pad p) i)) ∧
  (∀ (rk : List Word) (iv p p' : Bytes) (i j : Nat), 16 * (i + 1) ≤ p.length → 16 * (j + 1) ≤ p'.length → pieceAt p i = pieceAt p' j →
    pieceAt (modeEncrypt .ecb rk iv p) i = pieceAt (modeEncrypt .ecb rk iv p') j) ∧
  (∀ (rk : List Word) (iv c : Bytes),
    (c.length = 0 ∨ c.length % 16 ≠ 0 → modeDecrypt .ecb rk iv c = .error ⟨.padding, 1⟩) ∧
    (c.length ≠ 0 → c.length % 16 = 0 →
      ∃ q : Bytes, q.length = c.length ∧ (∀ i < c.length / 16, pieceAt q i = blockDecrypt rk (pieceAt c i)) ∧
        modeDecrypt .ecb rk iv c = unpad q)) ∧
  (∀ (rk : List Word) (iv iv' p c : Bytes),
    modeEncrypt .ecb rk iv p = modeEncrypt .ecb rk iv' p ∧ modeDecrypt .ecb rk iv c = modeDecrypt .ecb rk iv' c)

/-- CBC (44_mode_drivers.md R109, R110). `C_i = E(Q_i ⊕ C_{i−1})` with `C_{−1} = IV` and `Q = Pad(P)`. Decryption reports PADDING(LENGTH) for a length that is
no nonzero multiple of 16, and otherwise unpads the blocks `D(C_i) ⊕ C_{i−1}`. -/
def Obligations.CbcChainsBlocks : Prop :=
  (∀ (rk : List Word) (iv p : Bytes),
    (modeEncrypt .cbc rk iv p).length = (pad p).length ∧
    ∀ i < (pad p).length / 16,
      pieceAt (modeEncrypt .cbc rk iv p) i =
        blockEncrypt rk (xorBytes (pieceAt (pad p) i) (previousBlock iv (modeEncrypt .cbc rk iv p) i))) ∧
  (∀ (rk : List Word) (iv c : Bytes), iv.length = 16 →
    (c.length = 0 ∨ c.length % 16 ≠ 0 → modeDecrypt .cbc rk iv c = .error ⟨.padding, 1⟩) ∧
    (c.length ≠ 0 → c.length % 16 = 0 →
      ∃ q : Bytes, q.length = c.length ∧
        (∀ i < c.length / 16, pieceAt q i = xorBytes (blockDecrypt rk (pieceAt c i)) (previousBlock iv c i)) ∧
        modeDecrypt .cbc rk iv c = unpad q))

/-- CFB (44_mode_drivers.md R111, R112), byte by byte: byte `k` lies in chunk `k / 16`, whose keystream block is `S_i = E(C_{i−1})` with `C_{−1} = IV`, in
decryption from the received ciphertext; the ciphertext has the plaintext's length, and decryption never fails. It uses `E` in both directions. -/
def Obligations.CfbFeedsBackCiphertext : Prop :=
  ∀ (rk : List Word) (iv : Bytes),
    (∀ p : Bytes,
      (modeEncrypt .cfb rk iv p).length = p.length ∧
      ∀ k < p.length,
        byteAt (modeEncrypt .cfb rk iv p) k =
          byteAt p k ^^^ byteAt (blockEncrypt rk (previousBlock iv (modeEncrypt .cfb rk iv p) (k / 16))) (k % 16)) ∧
    (∀ c : Bytes, ∃ p : Bytes, modeDecrypt .cfb rk iv c = .ok p ∧ p.length = c.length ∧
      ∀ k < c.length, byteAt p k = byteAt c k ^^^ byteAt (blockEncrypt rk (previousBlock iv c (k / 16))) (k % 16))

/-- OFB (44_mode_drivers.md R113, R114). The keystream is `S_i = E(S_{i−1})` with `S_{−1} = IV`, so `S_i` is `E` applied `i + 1` times to the IV, whatever the
data; byte `k` is XORed with byte `k mod 16` of `S_{k / 16}`; decryption is the same function and never fails. Hence a changed plaintext byte changes the
ciphertext byte at its index by the same difference, and no other (section 6, R118 (a)): under one key and IV the two ciphertexts' XOR is the plaintexts'. -/
def Obligations.OfbByteDifferences : Prop :=
  (∀ (rk : List Word) (iv p : Bytes),
    (modeEncrypt .ofb rk iv p).length = p.length ∧
    ∀ k < p.length,
      byteAt (modeEncrypt .ofb rk iv p) k = byteAt p k ^^^ byteAt (Nat.iterate (blockEncrypt rk) (k / 16 + 1) iv) (k % 16)) ∧
  (∀ (rk : List Word) (iv c : Bytes), modeDecrypt .ofb rk iv c = .ok (modeEncrypt .ofb rk iv c)) ∧
  (∀ (rk : List Word) (iv p p' : Bytes), p.length = p'.length →
    ∀ k < p.length,
      byteAt (modeEncrypt .ofb rk iv p) k ^^^ byteAt (modeEncrypt .ofb rk iv p') k = byteAt p k ^^^ byteAt p' k)

/-- A change of IV changes the ciphertext, in CBC for every plaintext, in CFB and OFB for one of at least 16 bytes (44_mode_drivers.md section 6, (d);
90_conflicts.md C4). -/
def Obligations.IvChangesCiphertext : Prop :=
  ∀ (rk : List Word) (iv iv' p : Bytes), iv.length = 16 → iv'.length = 16 → iv ≠ iv' →
    modeEncrypt .cbc rk iv p ≠ modeEncrypt .cbc rk iv' p ∧
    (16 ≤ p.length → modeEncrypt .cfb rk iv p ≠ modeEncrypt .cfb rk iv' p ∧ modeEncrypt .ofb rk iv p ≠ modeEncrypt .ofb rk iv' p)

/-- A corrupted ciphertext of the same length never decrypts to the original plaintext: a PADDING error, in ECB or CBC only, or a different
plaintext (44_mode_drivers.md section 6; 90_conflicts.md C3). -/
def Obligations.CorruptionIsNeverTheOriginal : Prop :=
  ∀ (m : Mode) (rk : List Word) (iv p c : Bytes), iv.length = 16 → c.length = (modeEncrypt m rk iv p).length → c ≠ modeEncrypt m rk iv p →
    (∃ e, modeDecrypt m rk iv c = .error e ∧ e.kind = .padding ∧ (m = .ecb ∨ m = .cbc)) ∨
    (∃ p', modeDecrypt m rk iv c = .ok p' ∧ p' ≠ p)

/-! ### The host port (20_memory.md; 10_state.md section 4; 40_command_execution.md R73, R74) -/

/-- 40_command_execution.md R73: acceptance of a word written to CMD while idle. -/
def Obligations.AcceptanceEffects : Prop :=
  ∀ (s : State) (w : Word), s.busy = false →
    let t := s.access ⟨.write, 32, 0x0000, w⟩
    t.busy = true ∧ t.done = false ∧ t.ign = false ∧ t.outValid = false ∧ t.errCode = 0 ∧ t.errDetail = 0 ∧ t.outLen = 0 ∧
    (∀ k, t.outByte k = 0) ∧ t.pend = w ∧ t.resp = some .okWrite ∧ EngineUnchanged s t ∧ InputsUnchanged s t ∧
    t.inCap = s.inCap ∧ t.draws = s.draws ∧ t.host = s.host ∧ t.turns = s.turns

/-- 40_command_execution.md R74: while BUSY a legal write to CMD, IN_LEN or a DATA_IN byte below IN_CAP has no effect except `IGN <- 1`, any other has none; and
the registers and DATA_OUT read their acceptance values. -/
def Obligations.BusyWritesDropped : Prop :=
  ∀ s : State, s.Inv → s.busy = true →
    (∀ a : Access, a.legal = true → a.dir = .write →
      s.access a = { s with
        resp := some .okWrite
        ign := if (a.width = 32 ∧ (a.off = 0x0000 ∨ a.off = 0x000C)) ∨ (0x1000 ≤ a.off.toNat ∧ a.off.toNat < 0x1000 + s.inCap)
          then true else s.ign }) ∧
    s.done = false ∧ s.errorWord = 0 ∧ s.outLen = 0 ∧ (∀ k, s.outByte k = 0)

/-- 20_memory.md R45: which accesses are not legal; such an access responds BusError, changes nothing of the core and returns no data; a legal one is
never answered with BusError. -/
def Obligations.IllegalAccessesAreBusErrors : Prop :=
  ∀ (s : State) (a : Access),
    ((a.width ≠ 8 ∧ a.width ≠ 32) ∨ (a.width = 32 ∧ a.off.toNat % 4 ≠ 0) ∨ (a.width = 8 ∧ a.off.toNat < 0x1000) →
      s.access a = { s with resp := some .busError }) ∧
    (¬((a.width ≠ 8 ∧ a.width ≠ 32) ∨ (a.width = 32 ∧ a.off.toNat % 4 ≠ 0) ∨ (a.width = 8 ∧ a.off.toNat < 0x1000)) →
      (s.access a).resp ≠ some .busError)

/-- 20_memory.md R47: mixed widths see one byte array, little-endian. -/
def Obligations.MixedWidthsSeeOneArray : Prop :=
  ∀ (s : State) (j : Nat) (w x : Word), inCapLegal s.inCap = true → s.busy = false → 4 * j + 3 < s.inCap →
    (∀ i < 4,
      ((s.access ⟨.write, 32, BitVec.ofNat 14 (0x1000 + 4 * j), w⟩).access ⟨.read, 8, BitVec.ofNat 14 (0x1000 + 4 * j + i), x⟩).resp =
        some (.okRead8 (w.extractLsb' (8 * i) 8))) ∧
    (((((s.access ⟨.write, 8, BitVec.ofNat 14 (0x1000 + 4 * j), (w.extractLsb' 0 8).setWidth 32⟩).access
        ⟨.write, 8, BitVec.ofNat 14 (0x1000 + 4 * j + 1), (w.extractLsb' 8 8).setWidth 32⟩).access
        ⟨.write, 8, BitVec.ofNat 14 (0x1000 + 4 * j + 2), (w.extractLsb' 16 8).setWidth 32⟩).access
        ⟨.write, 8, BitVec.ofNat 14 (0x1000 + 4 * j + 3), (w.extractLsb' 24 8).setWidth 32⟩).access
        ⟨.read, 32, BitVec.ofNat 14 (0x1000 + 4 * j), x⟩).resp = some (.okRead32 w)

/-- 20_memory.md R48: a legal write to DATA_IN while idle stores the byte, or the four lane bytes, and leaves every other cell and everything else
unchanged; while BUSY it stores nothing and sets IGN. -/
def Obligations.DataInWrites : Prop :=
  ∀ (s : State) (k : Nat) (w : Word), inCapLegal s.inCap = true → k < s.inCap →
    (s.busy = false →
      let t := s.access ⟨.write, 8, BitVec.ofNat 14 (0x1000 + k), w⟩
      t = { s with dataIn := t.dataIn, resp := some .okWrite } ∧
      t.inByte k = some (w.extractLsb' 0 8) ∧ ∀ x, x ≠ k → t.inByte x = s.inByte x) ∧
    (s.busy = false → k % 4 = 0 →
      let t := s.access ⟨.write, 32, BitVec.ofNat 14 (0x1000 + k), w⟩
      t = { s with dataIn := t.dataIn, resp := some .okWrite } ∧
      (∀ i < 4, t.inByte (k + i) = some (w.extractLsb' (8 * i) 8)) ∧ ∀ x, x < k ∨ k + 4 ≤ x → t.inByte x = s.inByte x) ∧
    (s.busy = true →
      s.access ⟨.write, 8, BitVec.ofNat 14 (0x1000 + k), w⟩ = { s with ign := true, resp := some .okWrite } ∧
      (k % 4 = 0 → s.access ⟨.write, 32, BitVec.ofNat 14 (0x1000 + k), w⟩ = { s with ign := true, resp := some .okWrite }))

/-- A byte read of a DATA_IN cell returns the byte it holds, and of a ⊥ cell the free byte of the next draw, whatever that is. An aligned word read returns
four lanes `b 0 .. b 3`, little-endian, each the byte its cell holds or, for a ⊥ cell, the free byte of a draw of its own; `n i` counts the draws before lane
`i`. Only the response and the model's own draw counter change (20_memory.md section 2, R46, R49; the counter, and that the lowest lane draws first, are
the model's, log entry 4). -/
def Obligations.DataInReads : Prop :=
  ∀ (s : State) (k : Nat) (x : Word), inCapLegal s.inCap = true → k < s.inCap →
    (∀ v, s.inByte k = some v →
      s.access ⟨.read, 8, BitVec.ofNat 14 (0x1000 + k), x⟩ = { s with resp := some (.okRead8 v) }) ∧
    (s.inByte k = none →
      s.access ⟨.read, 8, BitVec.ofNat 14 (0x1000 + k), x⟩ =
        { s with resp := some (.okRead8 (Config.freeByte s.draws)), draws := s.draws + 1 }) ∧
    (k % 4 = 0 →
      ∃ (b : Nat → Byte) (n : Nat → Nat), n 0 = s.draws ∧
        (∀ i < 4,
          (∀ v, s.inByte (k + i) = some v → b i = v ∧ n (i + 1) = n i) ∧
          (s.inByte (k + i) = none → b i = Config.freeByte (n i) ∧ n (i + 1) = n i + 1)) ∧
        s.access ⟨.read, 32, BitVec.ofNat 14 (0x1000 + k), x⟩ =
          { s with resp := some (.okRead32 (b 3 ++ b 2 ++ b 1 ++ b 0)), draws := n 4 })

/-- 20_memory.md R50: a legal read of DATA_OUT returns its bytes, at either width; while BUSY every one of them is 0. -/
def Obligations.DataOutReads : Prop :=
  ∀ (s : State) (k : Nat) (x : Word), s.Inv → k < s.outCap →
    s.access ⟨.read, 8, BitVec.ofNat 14 (0x2000 + k), x⟩ = { s with resp := some (.okRead8 (s.outByte k)) } ∧
    (k % 4 = 0 →
      s.access ⟨.read, 32, BitVec.ofNat 14 (0x2000 + k), x⟩ =
        { s with resp := some (.okRead32 (s.outByte (k + 3) ++ s.outByte (k + 2) ++ s.outByte (k + 1) ++ s.outByte k)) }) ∧
    (s.busy = true → s.outByte k = 0)

/-- No read has a side effect on the core, at any offset and width, and a repeated read of written cells answers the same
(20_memory.md section 3). -/
def Obligations.ReadsHaveNoSideEffect : Prop :=
  ∀ (s : State) (a : Access), a.dir = .read →
    (∃ n r, s.draws ≤ n ∧ s.access a = { s with resp := some r, draws := n }) ∧
    (s.InputWritten s.inCap → (s.access a).access a = s.access a ∧ (s.access a).draws = s.draws)

/-- 32-bit reads of the registers, and a write of IN_LEN while idle, every bit read back as written (10_state.md section 4; 20_memory.md section 2). -/
def Obligations.RegisterAccesses : Prop :=
  ∀ (s : State) (w x : Word),
    s.access ⟨.read, 32, 0x0000, x⟩ = { s with resp := some (.okRead32 0) } ∧
    s.access ⟨.read, 32, 0x0004, x⟩ = { s with resp := some (.okRead32 s.statusWord) } ∧
    s.access ⟨.read, 32, 0x0008, x⟩ = { s with resp := some (.okRead32 s.errorWord) } ∧
    s.access ⟨.read, 32, 0x000C, x⟩ = { s with resp := some (.okRead32 s.inLen) } ∧
    s.access ⟨.read, 32, 0x0010, x⟩ = { s with resp := some (.okRead32 s.outLen) } ∧
    s.access ⟨.read, 32, 0x0014, x⟩ = { s with resp := some (.okRead32 s.capsWord) } ∧
    (s.busy = false → s.access ⟨.write, 32, 0x000C, w⟩ = { s with inLen := w, resp := some .okWrite })

/-- The fields of STATUS, ERROR and CAPS at their bit positions, every reserved bit 0 (10_state.md section 4). -/
def Obligations.RegisterFields : Prop :=
  ∀ s : State,
    s.statusWord.toNat = s.busy.toNat + 2 * s.done.toNat + 4 * (if s.errCode ≠ 0 then 1 else 0) +
      8 * (if s.cfg = .configured then 1 else 0) + 16 * s.outValid.toNat + 32 * s.ign.toNat +
      256 * (if s.cfg = .configured then (match s.mode with | .ecb => 0 | .cbc => 1 | .cfb => 2 | .ofb => 3) else 0) ∧
    s.errorWord.toNat = 256 * s.errDetail.toNat + s.errCode.toNat ∧
    (inCapLegal s.inCap = true → s.capsWord.toNat = s.inCap)

/-- 20_memory.md R43: reserved offsets and window bytes past the capacities read 0; writes to them, to STATUS, ERROR, OUT_LEN, CAPS and to the DATA_OUT
window have no effect, IGN included. -/
def Obligations.ReservedOffsets : Prop :=
  ∀ (s : State) (a : Access), inCapLegal s.inCap = true → a.legal = true →
    let hole := (0x0018 ≤ a.off.toNat ∧ a.off.toNat < 0x1000) ∨ (0x1000 + s.inCap ≤ a.off.toNat ∧ a.off.toNat < 0x2000) ∨
      (0x2000 + s.outCap ≤ a.off.toNat ∧ a.off.toNat < 0x3000) ∨ 0x3000 ≤ a.off.toNat
    (a.dir = .read → hole →
      s.access a = { s with resp := some (if a.width = 8 then .okRead8 0 else .okRead32 0) }) ∧
    (a.dir = .write →
      hole ∨ a.off = 0x0004 ∨ a.off = 0x0008 ∨ a.off = 0x0010 ∨ a.off = 0x0014 ∨ (0x2000 ≤ a.off.toNat ∧ a.off.toNat < 0x3000) →
      s.access a = { s with resp := some .okWrite })

/-! ### Invariants and rules of the whole machine -/

/-- The invariant holds after reset, whatever the capacity, and every step, of whichever agent, keeps it: canonical buffers within their capacities,
DATA_OUT zero beyond OUT_LEN, the STATUS exclusions, the acceptance values while BUSY, the engine instance's shape. -/
def Obligations.InvariantKept : Prop :=
  (∀ cap : Nat, inCapLegal cap = true → (State.resetWith cap).Inv) ∧ State.reset.Inv ∧
  ∀ s t : State, s.Inv → step s = .next t → t.Inv

/-- 10_state.md R29: `CFG = CONFIGURED` implies `RK = KeyExpand(KEY)` and a legal mode, `CFG = UNCONFIGURED` implies zeros; it holds at reset and every
rule that writes these components keeps it. A mode is one of the four codes. -/
def Obligations.EngineInvariantKept : Prop :=
  (∀ s t : State, s.EngineOk → step s = .next t → t.EngineOk) ∧ (∀ cap, (State.resetWith cap).EngineOk) ∧
  (∀ m : Mode, m.code.toNat = 0 ∨ m.code.toNat = 1 ∨ m.code.toNat = 2 ∨ m.code.toNat = 3)

/-- Only two things change the engine instance: a successful CONFIG from UNCONFIGURED creates it, CLEAR or reset destroys it; no host write reaches
it (10_state.md section 1). -/
def Obligations.EngineImmutable : Prop :=
  ∀ s t : State, step s = .next t →
    EngineUnchanged s t ∨ s.nextTurn = .reset ∨
    (s.nextTurn = .core ∧ s.busy = true ∧ ∃ i, decode s.pend = .instr i ∧
      ((isConfig i = true ∧ s.cfg = .unconfigured ∧ t.cfg = .configured ∧ t.errCode = s.errCode) ∨ (i = .clear ∧ t.cfg = .unconfigured)))

/-- 60_exceptions.md R128: errors are precise. A command that reports an error has written CODE, DETAIL, BUSY and DONE and nothing else. -/
def Obligations.ErrorsArePrecise : Prop :=
  ∀ (i : Instr) (s t : State), exec i s = .next t → s.errCode = 0 → t.errCode ≠ 0 →
    t = { s with errCode := t.errCode, errDetail := t.errDetail, busy := false, done := true }

/-- Which commands raise which kinds (60_exceptions.md section 1, the "raised by" column): PADDING from DECRYPT in ECB or CBC and from UNPAD,
UNSUPPORTED_MODE from CONFIG, LENGTH from the payload commands, CONFIGURATION from CONFIG and the cipher commands. The table also gives
VERIFICATION_MISMATCH (CODE 4) to ENCRYPT_VERIFIED; that it is left out here is 45_verifier.md R123 (section 1), by which it is unreachable under the spec's
rules, for a 16-byte IV and about the model, not silicon. ILLEGAL_COMMAND is of words that do not decode. -/
def Obligations.ErrorKindsByCommand : Prop :=
  ∀ (i : Instr) (s t : State), s.iv.length = 16 → s.errCode = 0 → exec i s = .next t →
    t.errCode = 0 ∨
    (t.errCode = 1 ∧ (isCipher i = true ∨ isConfig i = true)) ∨
    (t.errCode = 2 ∧ ((i = .decrypt ∧ (s.mode = .ecb ∨ s.mode = .cbc)) ∨ i = .unpad)) ∨
    (t.errCode = 3 ∧ ∃ mode klen ivlen, i = .config mode klen ivlen) ∨
    (t.errCode = 6 ∧ (isCipher i = true ∨ i = .pad ∨ i = .unpad))

/-- The IV is never read in ECB, and neither IV nor MODE by BLOCK_ENC, BLOCK_DEC, PAD and UNPAD: a run that differs only in them ends in a state that
differs only in them (10_state.md section 3; 42_block_transform.md section 3; 43_padding.md section 2). -/
def Obligations.IvUnusedInEcb : Prop :=
  (∀ (i : Instr) (s t : State) (iv' : Bytes), isConfig i = false → i ≠ .clear → s.mode = .ecb → exec i s = .next t →
    exec i { s with iv := iv' } = .next { t with iv := iv' }) ∧
  (∀ (i : Instr) (s t : State) (iv' : Bytes) (m' : Mode), i = .blockEnc ∨ i = .blockDec ∨ i = .pad ∨ i = .unpad → exec i s = .next t →
    exec i { s with iv := iv', mode := m' } = .next { t with iv := iv', mode := m' })

/-- KEY, IV and RK have no host read or write path: what the host does and observes in its step is the same whatever they hold
(10_state.md section 6; 60_exceptions.md section 5). -/
def Obligations.HostNeverSeesKey : Prop :=
  ∀ (s : State) (key' iv' : Bytes) (rk' : List Word),
    State.hostStep { s with key := key', iv := iv', rk := rk' } = { s.hostStep with key := key', iv := iv', rk := rk' }
end

