-- ==== Sys2Proof/Laws/Bytes.lean ====
section
/-! SUPPORT. Lengths of byte sequences through the split, the join, the block transform and the pieces of a message, and the byte orders. -/

namespace Sys2Proof.Machine

@[simp] theorem bytesBE_length (w : Word) : (bytesBE w).length = 4 := rfl
@[simp] theorem bytesLE_length (w : Word) : (bytesLE w).length = 4 := rfl
@[simp] theorem rep_length (n : Nat) (v : Byte) : (rep n v).length = n := by simp [rep]
@[simp] theorem trunc_length (s : Bytes) (n : Nat) : (trunc s n).length = min n s.length := by simp [trunc]
@[simp] theorem xorBytes_length (a b : Bytes) : (xorBytes a b).length = min a.length b.length := by simp [xorBytes]
@[simp] theorem joinReversed_length (x : Quad) : (joinReversed x).length = 16 := rfl
@[simp] theorem rounds_length (ks : List Word) (b : Bytes) : (rounds ks b).length = 16 := joinReversed_length _
@[simp] theorem blockEncrypt_length (rk : List Word) (b : Bytes) : (blockEncrypt rk b).length = 16 := rounds_length _ _
@[simp] theorem blockDecrypt_length (rk : List Word) (b : Bytes) : (blockDecrypt rk b).length = 16 := rounds_length _ _

/-- Lane `j` of a big-endian word. -/
theorem lane_be32 (a b c d : Byte) : lane (be32 a b c d) 0 = d ∧ lane (be32 a b c d) 1 = c ∧ lane (be32 a b c d) 2 = b ∧
    lane (be32 a b c d) 3 = a := by
  refine ⟨?_, ?_, ?_, ?_⟩ <;>
  · ext i hi
    simp only [lane, be32, BitVec.getElem_extractLsb', BitVec.getLsbD_append]
    have : i < 8 := hi
    interval_cases i <;> simp

/-- `bytesBE(BE32(b0,b1,b2,b3))` is the four bytes (00_scope.md R17). -/
theorem bytesBE_be32 (a b c d : Byte) : bytesBE (be32 a b c d) = [a, b, c, d] := by
  obtain ⟨h0, h1, h2, h3⟩ := lane_be32 a b c d
  simp [bytesBE, h0, h1, h2, h3]

/-- `BE32` of a word's bytes is the word (00_scope.md R17). -/
theorem be32_lanes (w : Word) : be32 (lane w 3) (lane w 2) (lane w 1) (lane w 0) = w := by
  ext i hi
  simp only [lane, be32, ← BitVec.getLsbD_eq_getElem, BitVec.getLsbD_append, BitVec.getLsbD_extractLsb']
  have : i < 32 := hi
  interval_cases i <;> simp

/-- The bus lanes assembled are the word (20_memory.md R46). -/
theorem le32_lanes (w : Word) : le32 (lane w 0) (lane w 1) (lane w 2) (lane w 3) = w := be32_lanes w

@[simp] theorem pieces_length (m : Nat) (q : Bytes) : (pieces m q).length = m := by
  induction m generalizing q with
  | zero => rfl
  | succ m ih => simp [pieces, ih]

/-- The pieces put together are the first `16·m` bytes. -/
theorem pieces_flatten (m : Nat) (q : Bytes) : (pieces m q).flatten = q.take (16 * m) := by
  induction m generalizing q with
  | zero => simp [pieces]
  | succ m ih =>
    rw [pieces, List.flatten_cons, ih, show 16 * (m + 1) = 16 + 16 * m by omega, List.take_add]

/-- Each piece of a sequence that is long enough is a block. -/
theorem pieces_blocks {m : Nat} {q : Bytes} (h : 16 * m ≤ q.length) : ∀ b ∈ pieces m q, b.length = 16 := by
  induction m generalizing q with
  | zero => simp [pieces]
  | succ m ih =>
    intro b hb
    rcases List.mem_cons.1 hb with rfl | hb
    · simp; omega
    · exact ih (by simp; omega) b hb

/-- No piece has more than 16 bytes. -/
theorem pieces_le (m : Nat) (q : Bytes) : ∀ b ∈ pieces m q, b.length ≤ 16 := by
  induction m generalizing q with
  | zero => simp [pieces]
  | succ m ih =>
    intro b hb
    rcases List.mem_cons.1 hb with rfl | hb
    · simp
    · exact ih _ b hb

/-- The blocks of a whole number of blocks put together are the sequence (44_mode_drivers.md R105). -/
theorem blocks_flatten {q : Bytes} (h : q.length % 16 = 0) : (blocks q).flatten = q := by
  rw [blocks, pieces_flatten, List.take_of_length_le (by omega)]

/-- The chunks put together are the sequence (44_mode_drivers.md R105). -/
theorem chunks_flatten (p : Bytes) : (chunks p).flatten = p := by
  rw [chunks, pieces_flatten, List.take_of_length_le (by omega)]

/-! ### The blocks and chunks a statement names -/

@[simp] theorem pieceAt_length (q : Bytes) (i : Nat) : (pieceAt q i).length = min 16 (q.length - 16 * i) := by simp [pieceAt]
@[simp] theorem previousBlock_zero (iv c : Bytes) : previousBlock iv c 0 = iv := rfl
@[simp] theorem previousBlock_succ (iv c : Bytes) (i : Nat) : previousBlock iv c (i + 1) = pieceAt c i := rfl

/-- The pieces of the mode drivers are the pieces a statement names. -/
theorem pieces_getElem (m : Nat) (q : Bytes) {i : Nat} (h : i < (pieces m q).length) : (pieces m q)[i] = pieceAt q i := by
  induction m generalizing q i with
  | zero => simp at h
  | succ m ih =>
    cases i with
    | zero => rfl
    | succ i =>
      have h' : i < (pieces m (q.drop 16)).length := by simpa using h
      simp only [pieces, List.getElem_cons_succ, ih _ h', pieceAt, List.drop_drop, show 16 + 16 * i = 16 * (i + 1) by omega]

/-- The piece at an index of a block in front of a sequence: the block, and after it the sequence's pieces. -/
theorem pieceAt_append {b : Bytes} (rest : Bytes) (h : b.length = 16) (i : Nat) :
    pieceAt (b ++ rest) i = match i with | 0 => b | j + 1 => pieceAt rest j := by
  cases i with
  | zero => simp [pieceAt, ← h]
  | succ j =>
    have hd : b.drop (16 + 16 * j) = [] := List.drop_of_length_le (by omega)
    simp [pieceAt, List.drop_append, h, hd, show 16 * (j + 1) = 16 + 16 * j by omega]

/-- The pieces of blocks put together are the blocks. -/
theorem pieceAt_flatten : ∀ (l : List Bytes), (∀ b ∈ l, b.length = 16) → ∀ i (h : i < l.length), pieceAt l.flatten i = l[i]
  | [], _, _, h => absurd h (Nat.not_lt_zero _)
  | b :: l, hb, i, h => by
    rw [List.flatten_cons, pieceAt_append _ (hb b (by simp))]
    cases i with
    | zero => rfl
    | succ i => simpa using pieceAt_flatten l (fun c hc => hb c (by simp [hc])) i (by simpa using h)

/-- Blocks put together have 16 bytes each. -/
theorem flatten_blocks_length : ∀ (l : List Bytes), (∀ b ∈ l, b.length = 16) → l.flatten.length = 16 * l.length
  | [], _ => rfl
  | b :: l, hb => by simp [hb b (by simp), flatten_blocks_length l (fun c hc => hb c (by simp [hc]))]; omega

/-- Byte `k` of a sequence is byte `k mod 16` of its piece `k / 16`. -/
theorem byteAt_pieceAt (q : Bytes) (k : Nat) : byteAt (pieceAt q (k / 16)) (k % 16) = byteAt q k := by
  have h : k % 16 < 16 := Nat.mod_lt _ (by decide)
  simp only [byteAt, pieceAt, List.getD_eq_getElem?_getD, List.getElem?_take_of_lt h, List.getElem?_drop,
    show 16 * (k / 16) + k % 16 = k by omega]

/-- A byte of the XOR of two sequences, where both have one. -/
theorem byteAt_xorBytes {a b : Bytes} {k : Nat} (ha : k < a.length) (hb : k < b.length) :
    byteAt (xorBytes a b) k = byteAt a k ^^^ byteAt b k := by
  simp [byteAt, xorBytes, List.getD_eq_getElem?_getD, ha, hb]

/-- A byte of a chunk under its keystream block. -/
theorem byteAt_xorKeystream {x s : Bytes} {k : Nat} (hx : k < x.length) (hs : k < s.length) :
    byteAt (xorKeystream x s) k = byteAt x k ^^^ byteAt s k := by
  rw [xorKeystream, byteAt_xorBytes hx (by simp; omega)]
  simp [byteAt, trunc, List.getD_eq_getElem?_getD, List.getElem?_take_of_lt hx]

/-- The number of bytes Pad appends is 1 to 16 (43_padding.md R99). -/
theorem padCount_range (len : Nat) : 1 ≤ padCount len ∧ padCount len ≤ 16 := by unfold padCount; omega

theorem pad_length (p : Bytes) : (pad p).length = p.length + padCount p.length := by simp [pad]

/-- Pad ends in a whole number of blocks (43_padding.md R99). -/
theorem pad_length_mod (p : Bytes) : (pad p).length % 16 = 0 := by rw [pad_length, padCount]; omega

/-- A whole block of the message is a block of the padded message. -/
theorem pieceAt_pad {p : Bytes} {i : Nat} (h : 16 * (i + 1) ≤ p.length) : pieceAt (pad p) i = pieceAt p i := by
  rw [pieceAt, pieceAt, pad, List.drop_append_of_le_length (by omega), List.take_append_of_le_length (by simp; omega)]

end Sys2Proof.Machine
end

