-- ==== Sys2Proof/Laws/Memory.lean ====
section
/-! SUPPORT. Sparse data and the byte buffers: reads after writes, and that every operation keeps the canonical form. -/

namespace Sys2Proof.Machine

section Cells
variable {α : Type}

theorem lookup_insertCell_self (m : List (Nat × α)) (a : Nat) (v : α) : lookup (insertCell m a v) a = some v := by
  induction m with
  | nil => simp [insertCell, lookup]
  | cons c rest ih =>
    obtain ⟨k, w⟩ := c
    simp only [insertCell]
    split
    · simp [lookup]
    · split
      · simp [lookup]
      · rename_i h1 h2
        simp only [lookup, ih]
        rw [if_neg (fun h => h2 h.symm)]

theorem lookup_insertCell_ne (m : List (Nat × α)) {a x : Nat} (v : α) (h : x ≠ a) :
    lookup (insertCell m a v) x = lookup m x := by
  induction m with
  | nil => simp [insertCell, lookup, Ne.symm h]
  | cons c rest ih =>
    obtain ⟨k, w⟩ := c
    simp only [insertCell]
    split
    · simp [lookup, Ne.symm h]
    · split
      · rename_i h2; subst h2; simp [lookup, Ne.symm h]
      · simp only [lookup, ih]

theorem mem_insertCell {m : List (Nat × α)} {a : Nat} {v : α} {c : Nat × α} (h : c ∈ insertCell m a v) :
    c = (a, v) ∨ c ∈ m := by
  induction m with
  | nil => simpa [insertCell] using h
  | cons d rest ih =>
    obtain ⟨k, w⟩ := d
    simp only [insertCell] at h
    split at h
    · simpa using h
    · split at h <;> simp only [List.mem_cons] at h ⊢
      · tauto
      · rcases h with h | h
        · exact .inr (.inl h)
        · rcases ih h with h | h
          · exact .inl h
          · exact .inr (.inr h)

/-- Listing a cell keeps the keys rising. -/
theorem insertCell_keysRise {m : List (Nat × α)} (h : keysRise m) (a : Nat) (v : α) : keysRise (insertCell m a v) := by
  induction m with
  | nil => simp [insertCell, keysRise]
  | cons c rest ih =>
    obtain ⟨k, w⟩ := c
    obtain ⟨hk, hrest⟩ := List.pairwise_cons.1 h
    simp only [insertCell]
    split
    · refine List.pairwise_cons.2 ⟨fun c hc => ?_, h⟩
      rcases List.mem_cons.1 hc with rfl | hc
      · assumption
      · exact lt_trans ‹a < k› (hk c hc)
    · split
      · rename_i h2; subst h2
        exact List.pairwise_cons.2 ⟨hk, hrest⟩
      · refine List.pairwise_cons.2 ⟨fun c hc => ?_, ih hrest⟩
        rcases mem_insertCell hc with rfl | hc
        · simp only; omega
        · exact hk c hc

theorem lookup_eraseCell_self (m : List (Nat × α)) (a : Nat) : lookup (eraseCell m a) a = none := by
  induction m with
  | nil => rfl
  | cons c rest ih =>
    obtain ⟨k, w⟩ := c
    by_cases h : k = a
    · rw [eraseCell, List.filter_cons_of_neg (by simpa using h)]; exact ih
    · rw [eraseCell, List.filter_cons_of_pos (by simpa using h), lookup, if_neg h]; exact ih

theorem lookup_eraseCell_ne (m : List (Nat × α)) {a x : Nat} (h : x ≠ a) : lookup (eraseCell m a) x = lookup m x := by
  induction m with
  | nil => rfl
  | cons c rest ih =>
    obtain ⟨k, w⟩ := c
    by_cases h2 : k = a
    · subst h2
      rw [eraseCell, List.filter_cons_of_neg (by simp), lookup, if_neg (Ne.symm h)]; exact ih
    · rw [eraseCell, List.filter_cons_of_pos (by simpa using h2), lookup, lookup]
      split
      · rfl
      · exact ih

theorem eraseCell_sublist (m : List (Nat × α)) (a : Nat) : (eraseCell m a).Sublist m := List.filter_sublist

end Cells

/-- A store keeps the canonical form. -/
theorem Memory.write_wf {b : Buffer} {m : List Host.Cell} (h : Memory.wf b m) (a : Nat) (v : Byte) :
    Memory.wf b (Memory.write b m a v) := by
  unfold Memory.write
  split
  · exact ⟨h.1.sublist (eraseCell_sublist m a), fun c hc => h.2 c ((eraseCell_sublist m a).subset hc)⟩
  · refine ⟨insertCell_keysRise h.1 a v, fun c hc => ?_⟩
    rcases mem_insertCell hc with rfl | hc
    · assumption
    · exact h.2 c hc

/-- Storing bytes keeps the canonical form. -/
theorem Memory.writeBytes_wf {b : Buffer} (vs : Bytes) {m : List Host.Cell} (h : Memory.wf b m) (a : Nat) :
    Memory.wf b (Memory.writeBytes b m a vs) := by
  induction vs generalizing m a with
  | nil => exact h
  | cons v vs ih => exact ih (Memory.write_wf h a v) (a + 1)

/-- No byte listed is canonical: reset and acceptance. -/
theorem Memory.nil_wf (b : Buffer) : Memory.wf b [] := by simp [Memory.wf, keysRise]

/-- A read after a write to the same index gives the byte written. -/
theorem Memory.read_write_self (b : Buffer) (m : List Host.Cell) (a : Nat) (v : Byte) :
    Memory.read b (Memory.write b m a v) a = some v := by
  by_cases h : b.unlisted = some v
  · rw [Memory.write, if_pos h, Memory.read, lookup_eraseCell_self, h]
  · rw [Memory.write, if_neg h, Memory.read, lookup_insertCell_self]

/-- A write leaves every other index alone, in any list of cells. -/
theorem Memory.read_write_ne (b : Buffer) (m : List Host.Cell) {a x : Nat} (v : Byte) (hx : x ≠ a) :
    Memory.read b (Memory.write b m a v) x = Memory.read b m x := by
  by_cases h : b.unlisted = some v
  · rw [Memory.write, if_pos h, Memory.read, lookup_eraseCell_ne m hx, Memory.read]
  · rw [Memory.write, if_neg h, Memory.read, lookup_insertCell_ne m v hx, Memory.read]

/-- Bytes stored from `a` on leave every index outside `a..a+len` alone. -/
theorem Memory.read_writeBytes_outside (b : Buffer) (vs : Bytes) (m : List Host.Cell) {a x : Nat} (hx : x < a ∨ a + vs.length ≤ x) :
    Memory.read b (Memory.writeBytes b m a vs) x = Memory.read b m x := by
  induction vs generalizing m a with
  | nil => rfl
  | cons v vs ih =>
    simp only [List.length_cons] at hx
    rw [Memory.writeBytes, ih (Memory.write b m a v) (by omega), Memory.read_write_ne b m v (by omega)]

/-- Bytes stored from `a` on read back. -/
theorem Memory.read_writeBytes_inside (b : Buffer) (vs : Bytes) (m : List Host.Cell) (a : Nat) {j : Nat}
    (hj : j < vs.length) : Memory.read b (Memory.writeBytes b m a vs) (a + j) = some (vs.getD j 0) := by
  induction vs generalizing m a j with
  | nil => simp at hj
  | cons v vs ih =>
    rw [Memory.writeBytes]
    cases j with
    | zero =>
      rw [Memory.read_writeBytes_outside b vs _ (by omega), Nat.add_zero, Memory.read_write_self]
      simp
    | succ j =>
      have := ih (Memory.write b m a v) (a + 1) (j := j) (by simpa using hj)
      rw [show a + (j + 1) = a + 1 + j by omega, this]
      simp

/-- What `MemRead` answers: the bytes of the range, in order, exactly when none of them is ⊥. -/
theorem Memory.readBytes_eq_some {b : Buffer} {m : List Host.Cell} (n a : Nat) (vs : Bytes) :
    Memory.readBytes b m a n = some vs ↔ vs.length = n ∧ ∀ j < n, Memory.read b m (a + j) = some (vs.getD j 0) := by
  induction n generalizing a vs with
  | zero => cases vs <;> simp [Memory.readBytes]
  | succ n ih =>
    cases vs with
    | nil =>
      simp only [Memory.readBytes]
      constructor
      · intro h; split at h <;> simp at h
      · rintro ⟨h, -⟩; simp at h
    | cons v vs =>
      simp only [Memory.readBytes]
      constructor
      · intro h
        split at h
        · rename_i v' vs' hv hvs
          simp only [Option.some.injEq, List.cons.injEq] at h
          obtain ⟨rfl, rfl⟩ := h
          obtain ⟨hl, hr⟩ := (ih (a + 1) vs').1 hvs
          refine ⟨by simp [hl], fun j hj => ?_⟩
          cases j with
          | zero => simpa using hv
          | succ j => rw [show a + (j + 1) = a + 1 + j by omega, hr j (by omega)]; simp
        · simp at h
      · rintro ⟨hl, hr⟩
        have h0 := hr 0 (by omega)
        have h1 : Memory.readBytes b m (a + 1) n = some vs := by
          refine (ih (a + 1) vs).2 ⟨by simpa using hl, fun j hj => ?_⟩
          have := hr (j + 1) (by omega)
          rw [show a + 1 + j = a + (j + 1) by omega, this]; simp
        simp only [Nat.add_zero, List.getD_cons_zero] at h0
        rw [h0, h1]

/-- `MemRead` answers no bytes exactly when some byte of the range is ⊥. -/
theorem Memory.readBytes_eq_none {b : Buffer} {m : List Host.Cell} (n a : Nat) :
    Memory.readBytes b m a n = none ↔ ∃ j < n, Memory.read b m (a + j) = none := by
  induction n generalizing a with
  | zero => simp [Memory.readBytes]
  | succ n ih =>
    have key : Memory.readBytes b m a (n + 1) = none ↔
        Memory.read b m a = none ∨ Memory.readBytes b m (a + 1) n = none := by
      simp only [Memory.readBytes]
      cases Memory.read b m a <;> cases Memory.readBytes b m (a + 1) n <;> simp
    rw [key, ih]
    constructor
    · rintro (h | ⟨j, hj, h⟩)
      · exact ⟨0, by omega, by simpa using h⟩
      · exact ⟨j + 1, by omega, by rw [show a + (j + 1) = a + 1 + j by omega]; exact h⟩
    · rintro ⟨j, hj, h⟩
      cases j with
      | zero => exact .inl (by simpa using h)
      | succ j => exact .inr ⟨j, by omega, by rw [show a + 1 + j = a + (j + 1) by omega]; exact h⟩

end Sys2Proof.Machine
end

