-- ==== Sys2Proof/Laws/State.lean ====
section
/-! SUPPORT. One lemma per field per named update of the state, so that no proof unfolds a record update. -/

namespace Sys2Proof.Machine

/-! ### State.accept -/

@[simp] theorem State.accept_cfg (w : Word) (s : State) : (s.accept w).cfg = s.cfg := rfl
@[simp] theorem State.accept_key (w : Word) (s : State) : (s.accept w).key = s.key := rfl
@[simp] theorem State.accept_iv (w : Word) (s : State) : (s.accept w).iv = s.iv := rfl
@[simp] theorem State.accept_mode (w : Word) (s : State) : (s.accept w).mode = s.mode := rfl
@[simp] theorem State.accept_rk (w : Word) (s : State) : (s.accept w).rk = s.rk := rfl
@[simp] theorem State.accept_busy (w : Word) (s : State) : (s.accept w).busy = true := rfl
@[simp] theorem State.accept_done (w : Word) (s : State) : (s.accept w).done = false := rfl
@[simp] theorem State.accept_ign (w : Word) (s : State) : (s.accept w).ign = false := rfl
@[simp] theorem State.accept_outValid (w : Word) (s : State) : (s.accept w).outValid = false := rfl
@[simp] theorem State.accept_errCode (w : Word) (s : State) : (s.accept w).errCode = 0 := rfl
@[simp] theorem State.accept_errDetail (w : Word) (s : State) : (s.accept w).errDetail = 0 := rfl
@[simp] theorem State.accept_inLen (w : Word) (s : State) : (s.accept w).inLen = s.inLen := rfl
@[simp] theorem State.accept_outLen (w : Word) (s : State) : (s.accept w).outLen = 0 := rfl
@[simp] theorem State.accept_pend (w : Word) (s : State) : (s.accept w).pend = w := rfl
@[simp] theorem State.accept_dataIn (w : Word) (s : State) : (s.accept w).dataIn = s.dataIn := rfl
@[simp] theorem State.accept_dataOut (w : Word) (s : State) : (s.accept w).dataOut = [] := rfl
@[simp] theorem State.accept_inCap (w : Word) (s : State) : (s.accept w).inCap = s.inCap := rfl
@[simp] theorem State.accept_resp (w : Word) (s : State) : (s.accept w).resp = s.resp := rfl
@[simp] theorem State.accept_draws (w : Word) (s : State) : (s.accept w).draws = s.draws := rfl
@[simp] theorem State.accept_host (w : Word) (s : State) : (s.accept w).host = s.host := rfl
@[simp] theorem State.accept_turns (w : Word) (s : State) : (s.accept w).turns = s.turns := rfl

/-! ### State.reportError -/

@[simp] theorem State.reportError_cfg (e : CmdError) (s : State) : (s.reportError e).cfg = s.cfg := rfl
@[simp] theorem State.reportError_key (e : CmdError) (s : State) : (s.reportError e).key = s.key := rfl
@[simp] theorem State.reportError_iv (e : CmdError) (s : State) : (s.reportError e).iv = s.iv := rfl
@[simp] theorem State.reportError_mode (e : CmdError) (s : State) : (s.reportError e).mode = s.mode := rfl
@[simp] theorem State.reportError_rk (e : CmdError) (s : State) : (s.reportError e).rk = s.rk := rfl
@[simp] theorem State.reportError_busy (e : CmdError) (s : State) : (s.reportError e).busy = false := rfl
@[simp] theorem State.reportError_done (e : CmdError) (s : State) : (s.reportError e).done = true := rfl
@[simp] theorem State.reportError_ign (e : CmdError) (s : State) : (s.reportError e).ign = s.ign := rfl
@[simp] theorem State.reportError_outValid (e : CmdError) (s : State) : (s.reportError e).outValid = s.outValid := rfl
@[simp] theorem State.reportError_errCode (e : CmdError) (s : State) : (s.reportError e).errCode = e.kind.code := rfl
@[simp] theorem State.reportError_errDetail (e : CmdError) (s : State) : (s.reportError e).errDetail = e.detail := rfl
@[simp] theorem State.reportError_inLen (e : CmdError) (s : State) : (s.reportError e).inLen = s.inLen := rfl
@[simp] theorem State.reportError_outLen (e : CmdError) (s : State) : (s.reportError e).outLen = s.outLen := rfl
@[simp] theorem State.reportError_pend (e : CmdError) (s : State) : (s.reportError e).pend = s.pend := rfl
@[simp] theorem State.reportError_dataIn (e : CmdError) (s : State) : (s.reportError e).dataIn = s.dataIn := rfl
@[simp] theorem State.reportError_dataOut (e : CmdError) (s : State) : (s.reportError e).dataOut = s.dataOut := rfl
@[simp] theorem State.reportError_inCap (e : CmdError) (s : State) : (s.reportError e).inCap = s.inCap := rfl
@[simp] theorem State.reportError_resp (e : CmdError) (s : State) : (s.reportError e).resp = s.resp := rfl
@[simp] theorem State.reportError_draws (e : CmdError) (s : State) : (s.reportError e).draws = s.draws := rfl
@[simp] theorem State.reportError_host (e : CmdError) (s : State) : (s.reportError e).host = s.host := rfl
@[simp] theorem State.reportError_turns (e : CmdError) (s : State) : (s.reportError e).turns = s.turns := rfl

/-! ### State.finishPlain -/

@[simp] theorem State.finishPlain_cfg (s : State) : (s.finishPlain).cfg = s.cfg := rfl
@[simp] theorem State.finishPlain_key (s : State) : (s.finishPlain).key = s.key := rfl
@[simp] theorem State.finishPlain_iv (s : State) : (s.finishPlain).iv = s.iv := rfl
@[simp] theorem State.finishPlain_mode (s : State) : (s.finishPlain).mode = s.mode := rfl
@[simp] theorem State.finishPlain_rk (s : State) : (s.finishPlain).rk = s.rk := rfl
@[simp] theorem State.finishPlain_busy (s : State) : (s.finishPlain).busy = false := rfl
@[simp] theorem State.finishPlain_done (s : State) : (s.finishPlain).done = true := rfl
@[simp] theorem State.finishPlain_ign (s : State) : (s.finishPlain).ign = s.ign := rfl
@[simp] theorem State.finishPlain_outValid (s : State) : (s.finishPlain).outValid = false := rfl
@[simp] theorem State.finishPlain_errCode (s : State) : (s.finishPlain).errCode = s.errCode := rfl
@[simp] theorem State.finishPlain_errDetail (s : State) : (s.finishPlain).errDetail = s.errDetail := rfl
@[simp] theorem State.finishPlain_inLen (s : State) : (s.finishPlain).inLen = s.inLen := rfl
@[simp] theorem State.finishPlain_outLen (s : State) : (s.finishPlain).outLen = 0 := rfl
@[simp] theorem State.finishPlain_pend (s : State) : (s.finishPlain).pend = s.pend := rfl
@[simp] theorem State.finishPlain_dataIn (s : State) : (s.finishPlain).dataIn = s.dataIn := rfl
@[simp] theorem State.finishPlain_dataOut (s : State) : (s.finishPlain).dataOut = s.dataOut := rfl
@[simp] theorem State.finishPlain_inCap (s : State) : (s.finishPlain).inCap = s.inCap := rfl
@[simp] theorem State.finishPlain_resp (s : State) : (s.finishPlain).resp = s.resp := rfl
@[simp] theorem State.finishPlain_draws (s : State) : (s.finishPlain).draws = s.draws := rfl
@[simp] theorem State.finishPlain_host (s : State) : (s.finishPlain).host = s.host := rfl
@[simp] theorem State.finishPlain_turns (s : State) : (s.finishPlain).turns = s.turns := rfl

/-! ### State.finishOutput -/

@[simp] theorem State.finishOutput_cfg (out : Bytes) (s : State) : (s.finishOutput out).cfg = s.cfg := rfl
@[simp] theorem State.finishOutput_key (out : Bytes) (s : State) : (s.finishOutput out).key = s.key := rfl
@[simp] theorem State.finishOutput_iv (out : Bytes) (s : State) : (s.finishOutput out).iv = s.iv := rfl
@[simp] theorem State.finishOutput_mode (out : Bytes) (s : State) : (s.finishOutput out).mode = s.mode := rfl
@[simp] theorem State.finishOutput_rk (out : Bytes) (s : State) : (s.finishOutput out).rk = s.rk := rfl
@[simp] theorem State.finishOutput_busy (out : Bytes) (s : State) : (s.finishOutput out).busy = false := rfl
@[simp] theorem State.finishOutput_done (out : Bytes) (s : State) : (s.finishOutput out).done = true := rfl
@[simp] theorem State.finishOutput_ign (out : Bytes) (s : State) : (s.finishOutput out).ign = s.ign := rfl
@[simp] theorem State.finishOutput_outValid (out : Bytes) (s : State) : (s.finishOutput out).outValid = true := rfl
@[simp] theorem State.finishOutput_errCode (out : Bytes) (s : State) : (s.finishOutput out).errCode = s.errCode := rfl
@[simp] theorem State.finishOutput_errDetail (out : Bytes) (s : State) : (s.finishOutput out).errDetail = s.errDetail := rfl
@[simp] theorem State.finishOutput_inLen (out : Bytes) (s : State) : (s.finishOutput out).inLen = s.inLen := rfl
@[simp] theorem State.finishOutput_outLen (out : Bytes) (s : State) : (s.finishOutput out).outLen = BitVec.ofNat 32 out.length := rfl
@[simp] theorem State.finishOutput_pend (out : Bytes) (s : State) : (s.finishOutput out).pend = s.pend := rfl
@[simp] theorem State.finishOutput_dataIn (out : Bytes) (s : State) : (s.finishOutput out).dataIn = s.dataIn := rfl
@[simp] theorem State.finishOutput_dataOut (out : Bytes) (s : State) : (s.finishOutput out).dataOut = Memory.writeBytes .dataOut s.dataOut 0 out := rfl
@[simp] theorem State.finishOutput_inCap (out : Bytes) (s : State) : (s.finishOutput out).inCap = s.inCap := rfl
@[simp] theorem State.finishOutput_resp (out : Bytes) (s : State) : (s.finishOutput out).resp = s.resp := rfl
@[simp] theorem State.finishOutput_draws (out : Bytes) (s : State) : (s.finishOutput out).draws = s.draws := rfl
@[simp] theorem State.finishOutput_host (out : Bytes) (s : State) : (s.finishOutput out).host = s.host := rfl
@[simp] theorem State.finishOutput_turns (out : Bytes) (s : State) : (s.finishOutput out).turns = s.turns := rfl

/-! ### State.withEngine -/

@[simp] theorem State.withEngine_cfg (e : Engine) (s : State) : (s.withEngine e).cfg = e.cfg := rfl
@[simp] theorem State.withEngine_key (e : Engine) (s : State) : (s.withEngine e).key = e.key := rfl
@[simp] theorem State.withEngine_iv (e : Engine) (s : State) : (s.withEngine e).iv = e.iv := rfl
@[simp] theorem State.withEngine_mode (e : Engine) (s : State) : (s.withEngine e).mode = e.mode := rfl
@[simp] theorem State.withEngine_rk (e : Engine) (s : State) : (s.withEngine e).rk = e.rk := rfl
@[simp] theorem State.withEngine_busy (e : Engine) (s : State) : (s.withEngine e).busy = s.busy := rfl
@[simp] theorem State.withEngine_done (e : Engine) (s : State) : (s.withEngine e).done = s.done := rfl
@[simp] theorem State.withEngine_ign (e : Engine) (s : State) : (s.withEngine e).ign = s.ign := rfl
@[simp] theorem State.withEngine_outValid (e : Engine) (s : State) : (s.withEngine e).outValid = s.outValid := rfl
@[simp] theorem State.withEngine_errCode (e : Engine) (s : State) : (s.withEngine e).errCode = s.errCode := rfl
@[simp] theorem State.withEngine_errDetail (e : Engine) (s : State) : (s.withEngine e).errDetail = s.errDetail := rfl
@[simp] theorem State.withEngine_inLen (e : Engine) (s : State) : (s.withEngine e).inLen = s.inLen := rfl
@[simp] theorem State.withEngine_outLen (e : Engine) (s : State) : (s.withEngine e).outLen = s.outLen := rfl
@[simp] theorem State.withEngine_pend (e : Engine) (s : State) : (s.withEngine e).pend = s.pend := rfl
@[simp] theorem State.withEngine_dataIn (e : Engine) (s : State) : (s.withEngine e).dataIn = s.dataIn := rfl
@[simp] theorem State.withEngine_dataOut (e : Engine) (s : State) : (s.withEngine e).dataOut = s.dataOut := rfl
@[simp] theorem State.withEngine_inCap (e : Engine) (s : State) : (s.withEngine e).inCap = s.inCap := rfl
@[simp] theorem State.withEngine_resp (e : Engine) (s : State) : (s.withEngine e).resp = s.resp := rfl
@[simp] theorem State.withEngine_draws (e : Engine) (s : State) : (s.withEngine e).draws = s.draws := rfl
@[simp] theorem State.withEngine_host (e : Engine) (s : State) : (s.withEngine e).host = s.host := rfl
@[simp] theorem State.withEngine_turns (e : Engine) (s : State) : (s.withEngine e).turns = s.turns := rfl

/-! ### State.respond -/

@[simp] theorem State.respond_cfg (r : Response) (s : State) : (s.respond r).cfg = s.cfg := rfl
@[simp] theorem State.respond_key (r : Response) (s : State) : (s.respond r).key = s.key := rfl
@[simp] theorem State.respond_iv (r : Response) (s : State) : (s.respond r).iv = s.iv := rfl
@[simp] theorem State.respond_mode (r : Response) (s : State) : (s.respond r).mode = s.mode := rfl
@[simp] theorem State.respond_rk (r : Response) (s : State) : (s.respond r).rk = s.rk := rfl
@[simp] theorem State.respond_busy (r : Response) (s : State) : (s.respond r).busy = s.busy := rfl
@[simp] theorem State.respond_done (r : Response) (s : State) : (s.respond r).done = s.done := rfl
@[simp] theorem State.respond_ign (r : Response) (s : State) : (s.respond r).ign = s.ign := rfl
@[simp] theorem State.respond_outValid (r : Response) (s : State) : (s.respond r).outValid = s.outValid := rfl
@[simp] theorem State.respond_errCode (r : Response) (s : State) : (s.respond r).errCode = s.errCode := rfl
@[simp] theorem State.respond_errDetail (r : Response) (s : State) : (s.respond r).errDetail = s.errDetail := rfl
@[simp] theorem State.respond_inLen (r : Response) (s : State) : (s.respond r).inLen = s.inLen := rfl
@[simp] theorem State.respond_outLen (r : Response) (s : State) : (s.respond r).outLen = s.outLen := rfl
@[simp] theorem State.respond_pend (r : Response) (s : State) : (s.respond r).pend = s.pend := rfl
@[simp] theorem State.respond_dataIn (r : Response) (s : State) : (s.respond r).dataIn = s.dataIn := rfl
@[simp] theorem State.respond_dataOut (r : Response) (s : State) : (s.respond r).dataOut = s.dataOut := rfl
@[simp] theorem State.respond_inCap (r : Response) (s : State) : (s.respond r).inCap = s.inCap := rfl
@[simp] theorem State.respond_resp (r : Response) (s : State) : (s.respond r).resp = some r := rfl
@[simp] theorem State.respond_draws (r : Response) (s : State) : (s.respond r).draws = s.draws := rfl
@[simp] theorem State.respond_host (r : Response) (s : State) : (s.respond r).host = s.host := rfl
@[simp] theorem State.respond_turns (r : Response) (s : State) : (s.respond r).turns = s.turns := rfl

/-! ### State.withDraws -/

@[simp] theorem State.withDraws_cfg (n : Nat) (s : State) : (s.withDraws n).cfg = s.cfg := rfl
@[simp] theorem State.withDraws_key (n : Nat) (s : State) : (s.withDraws n).key = s.key := rfl
@[simp] theorem State.withDraws_iv (n : Nat) (s : State) : (s.withDraws n).iv = s.iv := rfl
@[simp] theorem State.withDraws_mode (n : Nat) (s : State) : (s.withDraws n).mode = s.mode := rfl
@[simp] theorem State.withDraws_rk (n : Nat) (s : State) : (s.withDraws n).rk = s.rk := rfl
@[simp] theorem State.withDraws_busy (n : Nat) (s : State) : (s.withDraws n).busy = s.busy := rfl
@[simp] theorem State.withDraws_done (n : Nat) (s : State) : (s.withDraws n).done = s.done := rfl
@[simp] theorem State.withDraws_ign (n : Nat) (s : State) : (s.withDraws n).ign = s.ign := rfl
@[simp] theorem State.withDraws_outValid (n : Nat) (s : State) : (s.withDraws n).outValid = s.outValid := rfl
@[simp] theorem State.withDraws_errCode (n : Nat) (s : State) : (s.withDraws n).errCode = s.errCode := rfl
@[simp] theorem State.withDraws_errDetail (n : Nat) (s : State) : (s.withDraws n).errDetail = s.errDetail := rfl
@[simp] theorem State.withDraws_inLen (n : Nat) (s : State) : (s.withDraws n).inLen = s.inLen := rfl
@[simp] theorem State.withDraws_outLen (n : Nat) (s : State) : (s.withDraws n).outLen = s.outLen := rfl
@[simp] theorem State.withDraws_pend (n : Nat) (s : State) : (s.withDraws n).pend = s.pend := rfl
@[simp] theorem State.withDraws_dataIn (n : Nat) (s : State) : (s.withDraws n).dataIn = s.dataIn := rfl
@[simp] theorem State.withDraws_dataOut (n : Nat) (s : State) : (s.withDraws n).dataOut = s.dataOut := rfl
@[simp] theorem State.withDraws_inCap (n : Nat) (s : State) : (s.withDraws n).inCap = s.inCap := rfl
@[simp] theorem State.withDraws_resp (n : Nat) (s : State) : (s.withDraws n).resp = s.resp := rfl
@[simp] theorem State.withDraws_draws (n : Nat) (s : State) : (s.withDraws n).draws = n := rfl
@[simp] theorem State.withDraws_host (n : Nat) (s : State) : (s.withDraws n).host = s.host := rfl
@[simp] theorem State.withDraws_turns (n : Nat) (s : State) : (s.withDraws n).turns = s.turns := rfl

/-! ### State.dropWrite -/

@[simp] theorem State.dropWrite_cfg (s : State) : (s.dropWrite).cfg = s.cfg := rfl
@[simp] theorem State.dropWrite_key (s : State) : (s.dropWrite).key = s.key := rfl
@[simp] theorem State.dropWrite_iv (s : State) : (s.dropWrite).iv = s.iv := rfl
@[simp] theorem State.dropWrite_mode (s : State) : (s.dropWrite).mode = s.mode := rfl
@[simp] theorem State.dropWrite_rk (s : State) : (s.dropWrite).rk = s.rk := rfl
@[simp] theorem State.dropWrite_busy (s : State) : (s.dropWrite).busy = s.busy := rfl
@[simp] theorem State.dropWrite_done (s : State) : (s.dropWrite).done = s.done := rfl
@[simp] theorem State.dropWrite_ign (s : State) : (s.dropWrite).ign = true := rfl
@[simp] theorem State.dropWrite_outValid (s : State) : (s.dropWrite).outValid = s.outValid := rfl
@[simp] theorem State.dropWrite_errCode (s : State) : (s.dropWrite).errCode = s.errCode := rfl
@[simp] theorem State.dropWrite_errDetail (s : State) : (s.dropWrite).errDetail = s.errDetail := rfl
@[simp] theorem State.dropWrite_inLen (s : State) : (s.dropWrite).inLen = s.inLen := rfl
@[simp] theorem State.dropWrite_outLen (s : State) : (s.dropWrite).outLen = s.outLen := rfl
@[simp] theorem State.dropWrite_pend (s : State) : (s.dropWrite).pend = s.pend := rfl
@[simp] theorem State.dropWrite_dataIn (s : State) : (s.dropWrite).dataIn = s.dataIn := rfl
@[simp] theorem State.dropWrite_dataOut (s : State) : (s.dropWrite).dataOut = s.dataOut := rfl
@[simp] theorem State.dropWrite_inCap (s : State) : (s.dropWrite).inCap = s.inCap := rfl
@[simp] theorem State.dropWrite_resp (s : State) : (s.dropWrite).resp = s.resp := rfl
@[simp] theorem State.dropWrite_draws (s : State) : (s.dropWrite).draws = s.draws := rfl
@[simp] theorem State.dropWrite_host (s : State) : (s.dropWrite).host = s.host := rfl
@[simp] theorem State.dropWrite_turns (s : State) : (s.dropWrite).turns = s.turns := rfl

/-! ### State.setInLen -/

@[simp] theorem State.setInLen_cfg (w : Word) (s : State) : (s.setInLen w).cfg = s.cfg := rfl
@[simp] theorem State.setInLen_key (w : Word) (s : State) : (s.setInLen w).key = s.key := rfl
@[simp] theorem State.setInLen_iv (w : Word) (s : State) : (s.setInLen w).iv = s.iv := rfl
@[simp] theorem State.setInLen_mode (w : Word) (s : State) : (s.setInLen w).mode = s.mode := rfl
@[simp] theorem State.setInLen_rk (w : Word) (s : State) : (s.setInLen w).rk = s.rk := rfl
@[simp] theorem State.setInLen_busy (w : Word) (s : State) : (s.setInLen w).busy = s.busy := rfl
@[simp] theorem State.setInLen_done (w : Word) (s : State) : (s.setInLen w).done = s.done := rfl
@[simp] theorem State.setInLen_ign (w : Word) (s : State) : (s.setInLen w).ign = s.ign := rfl
@[simp] theorem State.setInLen_outValid (w : Word) (s : State) : (s.setInLen w).outValid = s.outValid := rfl
@[simp] theorem State.setInLen_errCode (w : Word) (s : State) : (s.setInLen w).errCode = s.errCode := rfl
@[simp] theorem State.setInLen_errDetail (w : Word) (s : State) : (s.setInLen w).errDetail = s.errDetail := rfl
@[simp] theorem State.setInLen_inLen (w : Word) (s : State) : (s.setInLen w).inLen = w := rfl
@[simp] theorem State.setInLen_outLen (w : Word) (s : State) : (s.setInLen w).outLen = s.outLen := rfl
@[simp] theorem State.setInLen_pend (w : Word) (s : State) : (s.setInLen w).pend = s.pend := rfl
@[simp] theorem State.setInLen_dataIn (w : Word) (s : State) : (s.setInLen w).dataIn = s.dataIn := rfl
@[simp] theorem State.setInLen_dataOut (w : Word) (s : State) : (s.setInLen w).dataOut = s.dataOut := rfl
@[simp] theorem State.setInLen_inCap (w : Word) (s : State) : (s.setInLen w).inCap = s.inCap := rfl
@[simp] theorem State.setInLen_resp (w : Word) (s : State) : (s.setInLen w).resp = s.resp := rfl
@[simp] theorem State.setInLen_draws (w : Word) (s : State) : (s.setInLen w).draws = s.draws := rfl
@[simp] theorem State.setInLen_host (w : Word) (s : State) : (s.setInLen w).host = s.host := rfl
@[simp] theorem State.setInLen_turns (w : Word) (s : State) : (s.setInLen w).turns = s.turns := rfl

/-! ### State.storeIn -/

@[simp] theorem State.storeIn_cfg (k : Nat) (v : Byte) (s : State) : (s.storeIn k v).cfg = s.cfg := rfl
@[simp] theorem State.storeIn_key (k : Nat) (v : Byte) (s : State) : (s.storeIn k v).key = s.key := rfl
@[simp] theorem State.storeIn_iv (k : Nat) (v : Byte) (s : State) : (s.storeIn k v).iv = s.iv := rfl
@[simp] theorem State.storeIn_mode (k : Nat) (v : Byte) (s : State) : (s.storeIn k v).mode = s.mode := rfl
@[simp] theorem State.storeIn_rk (k : Nat) (v : Byte) (s : State) : (s.storeIn k v).rk = s.rk := rfl
@[simp] theorem State.storeIn_busy (k : Nat) (v : Byte) (s : State) : (s.storeIn k v).busy = s.busy := rfl
@[simp] theorem State.storeIn_done (k : Nat) (v : Byte) (s : State) : (s.storeIn k v).done = s.done := rfl
@[simp] theorem State.storeIn_ign (k : Nat) (v : Byte) (s : State) : (s.storeIn k v).ign = s.ign := rfl
@[simp] theorem State.storeIn_outValid (k : Nat) (v : Byte) (s : State) : (s.storeIn k v).outValid = s.outValid := rfl
@[simp] theorem State.storeIn_errCode (k : Nat) (v : Byte) (s : State) : (s.storeIn k v).errCode = s.errCode := rfl
@[simp] theorem State.storeIn_errDetail (k : Nat) (v : Byte) (s : State) : (s.storeIn k v).errDetail = s.errDetail := rfl
@[simp] theorem State.storeIn_inLen (k : Nat) (v : Byte) (s : State) : (s.storeIn k v).inLen = s.inLen := rfl
@[simp] theorem State.storeIn_outLen (k : Nat) (v : Byte) (s : State) : (s.storeIn k v).outLen = s.outLen := rfl
@[simp] theorem State.storeIn_pend (k : Nat) (v : Byte) (s : State) : (s.storeIn k v).pend = s.pend := rfl
@[simp] theorem State.storeIn_dataIn (k : Nat) (v : Byte) (s : State) : (s.storeIn k v).dataIn = Memory.write .dataIn s.dataIn k v := rfl
@[simp] theorem State.storeIn_dataOut (k : Nat) (v : Byte) (s : State) : (s.storeIn k v).dataOut = s.dataOut := rfl
@[simp] theorem State.storeIn_inCap (k : Nat) (v : Byte) (s : State) : (s.storeIn k v).inCap = s.inCap := rfl
@[simp] theorem State.storeIn_resp (k : Nat) (v : Byte) (s : State) : (s.storeIn k v).resp = s.resp := rfl
@[simp] theorem State.storeIn_draws (k : Nat) (v : Byte) (s : State) : (s.storeIn k v).draws = s.draws := rfl
@[simp] theorem State.storeIn_host (k : Nat) (v : Byte) (s : State) : (s.storeIn k v).host = s.host := rfl
@[simp] theorem State.storeIn_turns (k : Nat) (v : Byte) (s : State) : (s.storeIn k v).turns = s.turns := rfl

/-! ### State.withHost -/

@[simp] theorem State.withHost_cfg (h : HostAgent) (s : State) : (s.withHost h).cfg = s.cfg := rfl
@[simp] theorem State.withHost_key (h : HostAgent) (s : State) : (s.withHost h).key = s.key := rfl
@[simp] theorem State.withHost_iv (h : HostAgent) (s : State) : (s.withHost h).iv = s.iv := rfl
@[simp] theorem State.withHost_mode (h : HostAgent) (s : State) : (s.withHost h).mode = s.mode := rfl
@[simp] theorem State.withHost_rk (h : HostAgent) (s : State) : (s.withHost h).rk = s.rk := rfl
@[simp] theorem State.withHost_busy (h : HostAgent) (s : State) : (s.withHost h).busy = s.busy := rfl
@[simp] theorem State.withHost_done (h : HostAgent) (s : State) : (s.withHost h).done = s.done := rfl
@[simp] theorem State.withHost_ign (h : HostAgent) (s : State) : (s.withHost h).ign = s.ign := rfl
@[simp] theorem State.withHost_outValid (h : HostAgent) (s : State) : (s.withHost h).outValid = s.outValid := rfl
@[simp] theorem State.withHost_errCode (h : HostAgent) (s : State) : (s.withHost h).errCode = s.errCode := rfl
@[simp] theorem State.withHost_errDetail (h : HostAgent) (s : State) : (s.withHost h).errDetail = s.errDetail := rfl
@[simp] theorem State.withHost_inLen (h : HostAgent) (s : State) : (s.withHost h).inLen = s.inLen := rfl
@[simp] theorem State.withHost_outLen (h : HostAgent) (s : State) : (s.withHost h).outLen = s.outLen := rfl
@[simp] theorem State.withHost_pend (h : HostAgent) (s : State) : (s.withHost h).pend = s.pend := rfl
@[simp] theorem State.withHost_dataIn (h : HostAgent) (s : State) : (s.withHost h).dataIn = s.dataIn := rfl
@[simp] theorem State.withHost_dataOut (h : HostAgent) (s : State) : (s.withHost h).dataOut = s.dataOut := rfl
@[simp] theorem State.withHost_inCap (h : HostAgent) (s : State) : (s.withHost h).inCap = s.inCap := rfl
@[simp] theorem State.withHost_resp (h : HostAgent) (s : State) : (s.withHost h).resp = s.resp := rfl
@[simp] theorem State.withHost_draws (h : HostAgent) (s : State) : (s.withHost h).draws = s.draws := rfl
@[simp] theorem State.withHost_host (h : HostAgent) (s : State) : (s.withHost h).host = h := rfl
@[simp] theorem State.withHost_turns (h : HostAgent) (s : State) : (s.withHost h).turns = s.turns := rfl

/-! ### State.endTurn -/

@[simp] theorem State.endTurn_cfg (s : State) : (s.endTurn).cfg = s.cfg := rfl
@[simp] theorem State.endTurn_key (s : State) : (s.endTurn).key = s.key := rfl
@[simp] theorem State.endTurn_iv (s : State) : (s.endTurn).iv = s.iv := rfl
@[simp] theorem State.endTurn_mode (s : State) : (s.endTurn).mode = s.mode := rfl
@[simp] theorem State.endTurn_rk (s : State) : (s.endTurn).rk = s.rk := rfl
@[simp] theorem State.endTurn_busy (s : State) : (s.endTurn).busy = s.busy := rfl
@[simp] theorem State.endTurn_done (s : State) : (s.endTurn).done = s.done := rfl
@[simp] theorem State.endTurn_ign (s : State) : (s.endTurn).ign = s.ign := rfl
@[simp] theorem State.endTurn_outValid (s : State) : (s.endTurn).outValid = s.outValid := rfl
@[simp] theorem State.endTurn_errCode (s : State) : (s.endTurn).errCode = s.errCode := rfl
@[simp] theorem State.endTurn_errDetail (s : State) : (s.endTurn).errDetail = s.errDetail := rfl
@[simp] theorem State.endTurn_inLen (s : State) : (s.endTurn).inLen = s.inLen := rfl
@[simp] theorem State.endTurn_outLen (s : State) : (s.endTurn).outLen = s.outLen := rfl
@[simp] theorem State.endTurn_pend (s : State) : (s.endTurn).pend = s.pend := rfl
@[simp] theorem State.endTurn_dataIn (s : State) : (s.endTurn).dataIn = s.dataIn := rfl
@[simp] theorem State.endTurn_dataOut (s : State) : (s.endTurn).dataOut = s.dataOut := rfl
@[simp] theorem State.endTurn_inCap (s : State) : (s.endTurn).inCap = s.inCap := rfl
@[simp] theorem State.endTurn_resp (s : State) : (s.endTurn).resp = s.resp := rfl
@[simp] theorem State.endTurn_draws (s : State) : (s.endTurn).draws = s.draws := rfl
@[simp] theorem State.endTurn_host (s : State) : (s.endTurn).host = s.host := rfl
@[simp] theorem State.endTurn_turns (s : State) : (s.endTurn).turns = s.turns.tail := rfl

/-! ### State.assertReset -/

@[simp] theorem State.assertReset_cfg (s : State) : (s.assertReset).cfg = .unconfigured := rfl
@[simp] theorem State.assertReset_key (s : State) : (s.assertReset).key = List.replicate 16 0 := rfl
@[simp] theorem State.assertReset_iv (s : State) : (s.assertReset).iv = List.replicate 16 0 := rfl
@[simp] theorem State.assertReset_mode (s : State) : (s.assertReset).mode = .ecb := rfl
@[simp] theorem State.assertReset_rk (s : State) : (s.assertReset).rk = List.replicate 32 0 := rfl
@[simp] theorem State.assertReset_busy (s : State) : (s.assertReset).busy = false := rfl
@[simp] theorem State.assertReset_done (s : State) : (s.assertReset).done = false := rfl
@[simp] theorem State.assertReset_ign (s : State) : (s.assertReset).ign = false := rfl
@[simp] theorem State.assertReset_outValid (s : State) : (s.assertReset).outValid = false := rfl
@[simp] theorem State.assertReset_errCode (s : State) : (s.assertReset).errCode = 0 := rfl
@[simp] theorem State.assertReset_errDetail (s : State) : (s.assertReset).errDetail = 0 := rfl
@[simp] theorem State.assertReset_inLen (s : State) : (s.assertReset).inLen = 0 := rfl
@[simp] theorem State.assertReset_outLen (s : State) : (s.assertReset).outLen = 0 := rfl
@[simp] theorem State.assertReset_pend (s : State) : (s.assertReset).pend = 0 := rfl
@[simp] theorem State.assertReset_dataIn (s : State) : (s.assertReset).dataIn = [] := rfl
@[simp] theorem State.assertReset_dataOut (s : State) : (s.assertReset).dataOut = [] := rfl
@[simp] theorem State.assertReset_inCap (s : State) : (s.assertReset).inCap = s.inCap := rfl
@[simp] theorem State.assertReset_resp (s : State) : (s.assertReset).resp = s.resp := rfl
@[simp] theorem State.assertReset_draws (s : State) : (s.assertReset).draws = s.draws := rfl
@[simp] theorem State.assertReset_host (s : State) : (s.assertReset).host = s.host := rfl
@[simp] theorem State.assertReset_turns (s : State) : (s.assertReset).turns = s.turns := rfl

/-! ### State.applyUpdate -/

@[simp] theorem State.applyUpdate_none (s : State) : s.applyUpdate none = s := rfl
@[simp] theorem State.applyUpdate_some (e : Engine) (s : State) : s.applyUpdate (some e) = s.withEngine e := rfl

end Sys2Proof.Machine
end

