-- ==== Sys2Proof/Laws/Ops.lean ====
section
/-! SUPPORT. What each shared operation over operands and results can do, said once. -/

namespace Sys2Proof.Machine

/-- Everything `complete` can answer (40_command_execution.md R75). -/
theorem complete_cases {r : CmdResult} {s t : State} (h : complete r s = .next t) :
    (∃ upd, r = .success upd none ∧ t = (s.applyUpdate upd).finishPlain) ∨
    (∃ upd out, r = .success upd (some out) ∧ t = (s.applyUpdate upd).finishOutput out) ∨
    (∃ e, r = .failure e ∧ t = s.reportError e) := by
  match r with
  | .success upd none => exact .inl ⟨upd, rfl, by simpa [complete] using h.symm⟩
  | .success upd (some out) => exact .inr (.inl ⟨upd, out, rfl, by simpa [complete] using h.symm⟩)
  | .failure e => exact .inr (.inr ⟨e, rfl, by simpa [complete] using h.symm⟩)
  | .modelFault => simp [complete] at h

/-- `complete` never refuses, and faults only on the model fault. -/
theorem complete_fault {r : CmdResult} {s : State} {f : Fault} (h : complete r s = .fault f) :
    r = .modelFault ∧ f = .unwrittenInput := by
  match r with
  | .success _ none => simp [complete] at h
  | .success _ (some _) => simp [complete] at h
  | .failure _ => simp [complete] at h
  | .modelFault => exact ⟨rfl, by cases h; rfl⟩

theorem complete_ne_refused (r : CmdResult) (s : State) (x : Refusal) : complete r s ≠ .refused x := by
  match r with
  | .success _ none => simp [complete]
  | .success _ (some _) => simp [complete]
  | .failure _ => simp [complete]
  | .modelFault => simp [complete]

/-- A read of written bytes hands them to the body. -/
theorem withInput_some {s : State} {k n : Nat} {v : Bytes} (body : Bytes → CmdResult) (hl : v.length = n)
    (h : ∀ j < n, s.inByte (k + j) = some (byteAt v j)) : withInput s k n body = body v := by
  have : s.memRead k n = some v := (Memory.readBytes_eq_some n k v).2 ⟨hl, h⟩
  rw [withInput, this]

/-- A read that covers a ⊥ cell is the model fault. -/
theorem withInput_none {s : State} {k n : Nat} (body : Bytes → CmdResult) (h : ∃ j < n, s.inByte (k + j) = none) :
    withInput s k n body = .modelFault := by
  have : s.memRead k n = none := (Memory.readBytes_eq_none n k).2 h
  rw [withInput, this]

/-- Everything a read can do: hand over the bytes of the range, or the model fault. -/
theorem withInput_cases (s : State) (k n : Nat) (body : Bytes → CmdResult) :
    (∃ v, v.length = n ∧ (∀ j < n, s.inByte (k + j) = some (byteAt v j)) ∧ withInput s k n body = body v) ∨
    ((∃ j < n, s.inByte (k + j) = none) ∧ withInput s k n body = .modelFault) := by
  cases hm : s.memRead k n with
  | none => exact .inr ⟨(Memory.readBytes_eq_none n k).1 hm, by rw [withInput, hm]⟩
  | some v =>
    obtain ⟨hl, hv⟩ := (Memory.readBytes_eq_some n k v).1 hm
    exact .inl ⟨v, hl, hv, by rw [withInput, hm]⟩

theorem requireConfigured_configured {s : State} (body : CmdResult) (h : s.cfg = .configured) :
    requireConfigured s body = body := by simp [requireConfigured, h]

theorem requireConfigured_unconfigured {s : State} (body : CmdResult) (h : s.cfg = .unconfigured) :
    requireConfigured s body = .failure notConfigured := by simp [requireConfigured, h]

theorem requireCapacity_fits {s : State} (body : CmdResult) (h : s.inLen.toNat ≤ s.inCap) : requireCapacity s body = body := by
  simp [requireCapacity, Nat.not_lt.2 h]

theorem requireCapacity_exceeds {s : State} (body : CmdResult) (h : s.inCap < s.inLen.toNat) :
    requireCapacity s body = .failure exceedsCapacity := by simp [requireCapacity, h]

theorem requireOneBlock_block {s : State} (body : CmdResult) (h : s.inLen = 16) : requireOneBlock s body = body := by
  rw [requireOneBlock, if_neg (not_not.2 h)]

theorem requireOneBlock_other {s : State} (body : CmdResult) (h : s.inLen ≠ 16) :
    requireOneBlock s body = .failure notOneBlock := by
  rw [requireOneBlock, if_pos h]

/-- The payload reaches the body when it fits and is written. -/
theorem withPayload_payload {s : State} {p : Bytes} (body : Bytes → CmdResult) (hc : s.inLen.toNat ≤ s.inCap) (hp : s.Payload p) :
    withPayload s body = body p := by
  rw [withPayload, requireCapacity_fits _ hc]
  refine withInput_some body hp.1 (fun j hj => ?_)
  have := hp.2 j (by rw [hp.1]; exact hj)
  simpa using this

/-- A reported error changes ERROR, BUSY and DONE only. -/
theorem State.reportError_reports (s : State) (e : CmdError) : ReportsError s (s.reportError e) e.kind.code e.detail := by
  simp [ReportsError, Ended, EngineUnchanged, InputsUnchanged, OutputUnchanged, OutsideUnchanged, State.inByte, State.outByte]

/-- Completion without a result. -/
theorem State.finishPlain_gives (s : State) : GivesNothing s s.finishPlain := by
  simp [GivesNothing, Ended, ErrorUnchanged, InputsUnchanged, OutsideUnchanged, State.inByte, State.outByte]

/-- Completion with a result. -/
theorem State.finishOutput_gives (s : State) (out : Bytes) :
    GivesOutput s (s.finishOutput out) out := by
  refine ⟨⟨rfl, rfl⟩, rfl, rfl, fun k hk => ?_, fun k hk => ?_, ⟨rfl, rfl⟩, ⟨rfl, rfl, rfl, rfl, rfl⟩, ⟨rfl, fun _ => rfl⟩,
    ⟨rfl, rfl, rfl, rfl, rfl, rfl, rfl⟩⟩
  · have := Memory.read_writeBytes_inside .dataOut out s.dataOut 0 hk
    simp only [Nat.zero_add] at this
    simp [State.outByte, byteAt, this]
  · simp [State.outByte, Memory.read_writeBytes_outside .dataOut out s.dataOut (a := 0) (x := k) (by omega)]

end Sys2Proof.Machine
end

