-- ==== Sys2Proof/Laws/PerInstr.lean ====
section
/-! SUPPORT. The family `TableRow`: the word of every well-formed command matches its row of spec/opcode_table.json, one lemma per constructor. -/

namespace Sys2Proof.Laws.TableRow

/-- The `mask` of a command's row in spec/opcode_table.json. -/
def mask : Instr → Word
  | .config _ _ _ => 0xFFF8010F
  | .configDefault _ _ => 0xFFF801FF
  | .nop | .encrypt | .decrypt | .encryptVerified | .blockEnc | .blockDec | .pad | .unpad | .clear => 0xFFFFFFFF

/-- The `match` value of a command's row in spec/opcode_table.json. -/
def pattern : Instr → Word
  | .nop => 0x00000000
  | .config _ _ _ => 0x00000101
  | .configDefault _ _ => 0x00000001
  | .encrypt => 0x00000002
  | .decrypt => 0x00000003
  | .encryptVerified => 0x00000004
  | .blockEnc => 0x00000005
  | .blockDec => 0x00000006
  | .pad => 0x00000007
  | .unpad => 0x00000008
  | .clear => 0x00000009

/-- The encoded word, masked, is the row's match value. -/
def Statement (i : Instr) : Prop := i.wf = true → encode i &&& mask i = pattern i

theorem nop : Statement .nop := fun _ => by decide
theorem encrypt : Statement .encrypt := fun _ => by decide
theorem decrypt : Statement .decrypt := fun _ => by decide
theorem encryptVerified : Statement .encryptVerified := fun _ => by decide
theorem blockEnc : Statement .blockEnc := fun _ => by decide
theorem blockDec : Statement .blockDec := fun _ => by decide
theorem pad : Statement .pad := fun _ => by decide
theorem unpad : Statement .unpad := fun _ => by decide
theorem clear : Statement .clear := fun _ => by decide

/-- The bits of a format-C word that the rows fix do not depend on KLEN and IVLEN. -/
theorem configWord_bits (mp mode klen ivlen : Nat) {k : Nat} (hk : k < 32) :
    (configWord mp mode klen ivlen).getLsbD k =
      if k < 4 then (1#4).getLsbD k
      else if k < 8 then (BitVec.ofNat 4 mode).getLsbD (k - 4)
      else if k < 9 then (BitVec.ofNat 1 mp).getLsbD (k - 8)
      else if k < 14 then (BitVec.ofNat 5 klen).getLsbD (k - 9)
      else if k < 19 then (BitVec.ofNat 5 ivlen).getLsbD (k - 14)
      else false := by
  simp only [configWord, BitVec.getLsbD_append]
  interval_cases k <;> simp

theorem config (mode klen ivlen : Nat) : Statement (.config mode klen ivlen) := fun _ => by
  apply BitVec.eq_of_getLsbD_eq
  intro k hk
  rw [BitVec.getLsbD_and]
  simp only [encode, mask, pattern]
  rw [configWord_bits 1 mode klen ivlen hk]
  interval_cases k <;> simp

theorem configDefault (klen ivlen : Nat) : Statement (.configDefault klen ivlen) := fun _ => by
  apply BitVec.eq_of_getLsbD_eq
  intro k hk
  rw [BitVec.getLsbD_and]
  simp only [encode, mask, pattern]
  rw [configWord_bits 0 0 klen ivlen hk]
  interval_cases k <;> simp

end Sys2Proof.Laws.TableRow
end

