-- ==== Sys2Proof/Laws/Step.lean ====
section
/-! SUPPORT. What a step, a completion and a host access can do, said once. -/

namespace Sys2Proof.Machine

/-- Everything a step that answers a next state can be: a completion of a busy core, an idle core's turn, a host line, or reset. -/
theorem step_cases {s t : State} (h : step s = .next t) :
    (s.nextTurn = .core ∧ s.busy = true ∧ completion s.endTurn = .next t) ∨
    (s.nextTurn = .core ∧ s.busy = false ∧ t = s.endTurn) ∨
    (s.nextTurn = .host ∧ t = s.endTurn.hostStep) ∨
    (s.nextTurn = .reset ∧ t = s.endTurn.assertReset) := by
  unfold step at h
  cases hn : s.nextTurn with
  | core =>
    rw [hn, stepOf, coreStep, State.endTurn_busy] at h
    cases hb : s.busy with
    | true => rw [hb, if_pos rfl] at h; exact .inl ⟨rfl, rfl, h⟩
    | false =>
      rw [hb, if_neg Bool.false_ne_true, Host.Outcome.next.injEq] at h
      exact .inr (.inl ⟨rfl, rfl, h.symm⟩)
  | host =>
    rw [hn, stepOf, Host.Outcome.next.injEq] at h
    exact .inr (.inr (.inl ⟨rfl, h.symm⟩))
  | reset =>
    rw [hn, stepOf, Host.Outcome.next.injEq] at h
    exact .inr (.inr (.inr ⟨rfl, h.symm⟩))

/-- A completion is the meaning of the decoded command, or the report of an illegal word. -/
theorem completion_cases (s : State) :
    (∃ i, decode s.pend = .instr i ∧ completion s = exec i s) ∨
    (∃ r, decode s.pend = .illegal r ∧ completion s = .next (s.reportError (illegalCommand r))) := by
  unfold completion
  cases decode s.pend with
  | instr i => exact .inl ⟨i, rfl, rfl⟩
  | illegal r => exact .inr ⟨r, rfl, rfl⟩

/-- The result each command's body computes: `r = Exec(w, S)` (40_command_execution.md R75, R76). -/
def resultOf (i : Instr) (s : State) : CmdResult :=
  match i with
  | .nop => .success none none
  | .config mode klen ivlen => configBody (some mode) klen ivlen s
  | .configDefault klen ivlen => configBody none klen ivlen s
  | .encrypt => cipherBody (fun m rk iv p => .ok (modeEncrypt m rk iv p)) s
  | .decrypt => cipherBody modeDecrypt s
  | .encryptVerified => cipherBody encryptVerified s
  | .blockEnc => blockBody blockEncrypt s
  | .blockDec => blockBody blockDecrypt s
  | .pad => withPayload s (fun p => .success none (some (pad p)))
  | .unpad => withPayload s (fun q => emit (unpad q))
  | .clear => .success (some clearedEngine) none

/-- Every command completes the result its body computes. -/
theorem exec_eq_complete (i : Instr) (s : State) : exec i s = complete (resultOf i s) s := by
  cases i <;> rfl

/-- No command refuses. -/
theorem exec_ne_refused (i : Instr) (s : State) (x : Refusal) : exec i s ≠ .refused x := by
  rw [exec_eq_complete]; exact complete_ne_refused _ _ x

/-- A legal read changes nothing but the response and the draw counter (20_memory.md R53). -/
theorem State.readAccess_frame (width off : Nat) (s : State) :
    ∃ n r, s.readAccess width off = (s.withDraws n).respond r := by
  unfold State.readAccess
  split
  · exact ⟨_, _, rfl⟩
  · split
    · exact ⟨s.draws, _, rfl⟩
    · exact ⟨_, _, rfl⟩

/-- No access touches the host agent. -/
@[simp] theorem State.access_host (a : Access) (s : State) : (s.access a).host = s.host := by
  have lanes (bs : Bytes) (off : Nat) (s : State) : (s.writeLanes off bs).host = s.host := by
    induction bs generalizing off s with
    | nil => rfl
    | cons v vs ih => rw [State.writeLanes, ih, State.writeLane]; split <;> [split; skip] <;> rfl
  unfold State.access
  split
  · split
    · obtain ⟨n, r, h⟩ := State.readAccess_frame a.width a.off.toNat s
      rw [h]; rfl
    · show (s.writeAccess _ _ _).host = s.host
      unfold State.writeAccess State.writeLane State.writeRegister
      repeat' split
      all_goals first | rfl | exact lanes _ _ _
  · rfl

/-- The data of a 32-bit read is bound to the variable a line names. -/
@[simp] theorem HostAgent.bindResponse_read32 (h : HostAgent) (name : Nat) (w : Word) :
    h.bindResponse (some name) (some (.okRead32 w)) = h.bindVar name w := rfl

/-- The data of an 8-bit read is bound zero-extended. -/
@[simp] theorem HostAgent.bindResponse_read8 (h : HostAgent) (name : Nat) (b : Byte) :
    h.bindResponse (some name) (some (.okRead8 b)) = h.bindVar name (b.setWidth 32) := rfl

/-- A line that names no variable binds none, and neither does a write or a BusError. -/
theorem HostAgent.bindResponse_nothing (h : HostAgent) {bind : Option Nat} {r : Option Response}
    (hn : bind = none ∨ r = some .okWrite ∨ r = some .busError) : h.bindResponse bind r = h := by
  rcases hn with rfl | rfl | rfl
  · rfl
  · cases bind <;> rfl
  · cases bind <;> rfl

/-- Everything binding a response can do: nothing, or one variable. -/
theorem HostAgent.bindResponse_cases (h : HostAgent) (bind : Option Nat) (r : Option Response) :
    h.bindResponse bind r = h ∨ ∃ name w, bind = some name ∧ h.bindResponse bind r = h.bindVar name w := by
  cases bind with
  | none => exact .inl rfl
  | some name =>
    unfold HostAgent.bindResponse
    cases r.bind Response.data with
    | none => exact .inl rfl
    | some w => exact .inr ⟨name, w, rfl, rfl⟩

/-- Everything a byte written to a buffer window can do. -/
theorem State.writeLane_cases (off : Nat) (v : Byte) (s : State) :
    (s.inIndex off = none ∧ s.writeLane off v = s) ∨
    (∃ k, s.inIndex off = some k ∧ s.busy = true ∧ s.writeLane off v = s.dropWrite) ∨
    (∃ k, s.inIndex off = some k ∧ s.busy = false ∧ s.writeLane off v = s.storeIn k v) := by
  unfold State.writeLane
  cases h : s.inIndex off with
  | none => exact .inl ⟨rfl, rfl⟩
  | some k =>
    cases hb : s.busy with
    | true => exact .inr (.inl ⟨k, rfl, rfl, by simp⟩)
    | false => exact .inr (.inr ⟨k, rfl, rfl, by simp⟩)

/-- Everything a write to a register can do. -/
theorem State.writeRegister_cases (off : Nat) (w : Word) (s : State) :
    s.writeRegister off w = s ∨ (s.busy = true ∧ s.writeRegister off w = s.dropWrite) ∨
    (s.busy = false ∧ off = offCmd ∧ s.writeRegister off w = s.accept w) ∨
    (s.busy = false ∧ off = offInLen ∧ s.writeRegister off w = s.setInLen w) := by
  unfold State.writeRegister
  have h3 : offInLen ≠ offCmd := by decide
  cases hb : s.busy <;> by_cases h1 : off = offCmd <;> by_cases h2 : off = offInLen <;> simp [h1, h2, h3]

/-- What holds of the index a DATA_IN offset has. -/
theorem State.inIndex_eq_some {s : State} {off k : Nat} (h : s.inIndex off = some k) :
    k < s.inCap ∧ off = inWindow + k ∧ off < outWindow := by
  unfold State.inIndex at h
  split at h
  · rename_i hc
    simp only [Option.some.injEq] at h
    omega
  · simp at h

/-- The byte read at a DATA_IN offset: the cell's byte, or the free byte of the next draw (20_memory.md R49). -/
theorem State.readLane_dataIn {s : State} {off k : Nat} (draws : Nat) (h : s.inIndex off = some k) :
    s.readLane draws off =
      match s.inByte k with
      | some v => (v, draws)
      | none => (Config.freeByte draws, draws + 1) := by
  cases hv : s.inByte k <;> simp [State.readLane, h, hv]

end Sys2Proof.Machine
end

