-- ==== Sys2Proof/Tests/Slice0.lean ====
section
/-! SUPPORT. Tests on fixed values taken from the spec, and a witness for the hypotheses of each statement. -/

-- One theorem at a time: each kernel evaluation would otherwise hold a thread of its own.
set_option Elab.async false

namespace Sys2Proof.Tests

open Sys2Proof.Machine

/-! ### Helpers -/

/-- A field of the next state; none at a fault or a refusal. -/
def after {α : Type} (o : Host.Outcome State Fault Refusal) (f : State → α) : Option α :=
  match o with
  | .next t => some (f t)
  | .fault _ => none
  | .refused _ => none

/-- Whether the outcome is the model fault. -/
def faults (o : Host.Outcome State Fault Refusal) : Bool :=
  match o with
  | .next _ => false
  | .fault .unwrittenInput => true
  | .refused _ => false

/-- The ASCII bytes of "1234123412341234" (95_test_vectors.md, doc key). -/
def docKey : Bytes := [0x31, 0x32, 0x33, 0x34, 0x31, 0x32, 0x33, 0x34, 0x31, 0x32, 0x33, 0x34, 0x31, 0x32, 0x33, 0x34]

/-- The ASCII bytes of "0000111122223333" (95_test_vectors.md, doc IV). -/
def docIv : Bytes := [0x30, 0x30, 0x30, 0x30, 0x31, 0x31, 0x31, 0x31, 0x32, 0x32, 0x32, 0x32, 0x33, 0x33, 0x33, 0x33]

/-- The ASCII bytes of "hello". -/
def hello : Bytes := [0x68, 0x65, 0x6C, 0x6C, 0x6F]

/-- The CBC ciphertext of "hello" (V-MD-2). -/
def helloCbc : Bytes := [0x55, 0x1d, 0xb2, 0x3b, 0x33, 0x2b, 0xa4, 0x73, 0x0b, 0xb7, 0x3b, 0xab, 0xbb, 0x88, 0xde, 0x57]

/-- "hello" padded (V-PD-2). -/
def helloPadded : Bytes := hello ++ rep 11 0x0B

/-- An unconfigured core with these bytes in DATA_IN from index 0, and IN_LEN their number. -/
def loaded (p : Bytes) : State :=
  { State.reset with dataIn := Memory.writeBytes .dataIn [] 0 p, inLen := BitVec.ofNat 32 p.length }

/-- The same, configured with the doc key and the doc IV. -/
def configured (m : Mode) (p : Bytes) : State :=
  { loaded p with cfg := .configured, key := docKey, iv := docIv, mode := m, rk := keyExpand docKey }

/-- The first `n` bytes of DATA_OUT. -/
def outBytes (n : Nat) (s : State) : Bytes := (List.range n).map s.outByte

/-- A state whose next step is the core's, with `w` pending. -/
def pending (w : Word) (s : State) : State := s.placeCommand w

/-! ### WellFormed: each check refuses a term (30_encoding.md R63) -/

theorem test_wf_mode_too_wide : (Instr.config 16 16 16).wf = false := by decide
theorem test_wf_klen_too_wide : (Instr.config 0 32 16).wf = false := by decide
theorem test_wf_ivlen_too_wide : (Instr.config 0 16 32).wf = false := by decide
theorem test_wf_default_klen_too_wide : (Instr.configDefault 32 16).wf = false := by decide
theorem test_wf_default_ivlen_too_wide : (Instr.configDefault 16 32).wf = false := by decide
theorem test_wf_largest_fields : (Instr.config 15 31 31).wf = true := by decide

/-! ### Decoding: one word per constructor, written out from formats P and C (30_encoding.md R62, R63, R66) -/

theorem test_decode_nop : decode 0b00000000000000000000000000000000 = .instr .nop := by decide
theorem test_decode_config : decode 0b00000000000001000010000100010001 = .instr (.config 1 16 16) := by decide
theorem test_decode_config_fields : decode 0b00000000000001001100011101000001 = .instr (.config 4 3 19) := by decide
theorem test_decode_config_default : decode 0b00000000000001000010000000000001 = .instr (.configDefault 16 16) := by decide
theorem test_decode_encrypt : decode 0b00000000000000000000000000000010 = .instr .encrypt := by decide
theorem test_decode_decrypt : decode 0b00000000000000000000000000000011 = .instr .decrypt := by decide
theorem test_decode_encrypt_verified : decode 0b00000000000000000000000000000100 = .instr .encryptVerified := by decide
theorem test_decode_block_enc : decode 0b00000000000000000000000000000101 = .instr .blockEnc := by decide
theorem test_decode_block_dec : decode 0b00000000000000000000000000000110 = .instr .blockDec := by decide
theorem test_decode_pad : decode 0b00000000000000000000000000000111 = .instr .pad := by decide
theorem test_decode_unpad : decode 0b00000000000000000000000000001000 = .instr .unpad := by decide
theorem test_decode_clear : decode 0b00000000000000000000000000001001 = .instr .clear := by decide
theorem test_encode_config : encode (.config 15 31 31) = 0x0007FFF1 := by decide

/-- V-DC-2: the opcode check comes before the reserved bits. -/
theorem test_decode_reserved_opcode : decode 0xFFFFFFFF = .illegal .reservedOpcode := by decide

/-- V-DC-4, V-DC-5, V-DC-6. -/
theorem test_decode_reserved_bits :
    decode 0x80000000 = .illegal .reservedBits ∧ decode 0x000C2111 = .illegal .reservedBits ∧
    decode 0x00042011 = .illegal .reservedBits := by decide

/-! ### The cipher -/

/-- V-PR-1, the row of 0x01234567. -/
theorem test_word_transforms :
    tau 0x01234567 = 0x90F473A2 ∧ linBlock 0x01234567 = 0xFA26EB37 ∧ linKey 0x01234567 = 0xDA0F34E1 ∧
    transBlock 0x01234567 = 0x6EF180C9 ∧ transKey 0x01234567 = 0xCFC85B85 := by decide +kernel

/-- 41_key_schedule.md R88: CK0, CK9 (wrap-around) and CK31. -/
theorem test_ck : ck 0 = 0x00070E15 ∧ ck 9 = 0xFC030A11 ∧ ck 31 = 0x646B7279 := by decide

/-- V-KS-2: the first and the last two round keys of the doc key. -/
theorem test_key_expand_doc :
    (keyExpand docKey).take 2 = [0x4257cd3b, 0xe469939d] ∧ (keyExpand docKey).drop 30 = [0x5e661ce4, 0xbdf43daa] := by
  decide +kernel

/-- V-KS-3: the all-zero key on the all-zero block. -/
theorem test_zero_key_block :
    blockEncrypt (keyExpand (rep 16 0)) (rep 16 0) =
      [0x9f, 0x1f, 0x7b, 0xff, 0x6f, 0x55, 0x11, 0x38, 0x4d, 0x94, 0x30, 0x53, 0x1e, 0x53, 0x8f, 0xd3] := by decide +kernel

/-- V-PD-10: the length check runs first; V-PD-13: a wrong pad byte; V-PD-16: only one block is stripped. -/
theorem test_unpad_checks :
    (unpad (rep 17 1)).isOk = false ∧ (unpad (rep 14 0x41 ++ [3, 2])).isOk = false ∧
    (unpad (rep 32 0x10)).toOption = some (rep 16 0x10) := by decide +kernel

/-- V-MD-16: OFB with a chunk of one byte. -/
theorem test_ofb_short_chunk :
    ((modeEncrypt .ofb (keyExpand docKey) docIv
      [0x30, 0x31, 0x32, 0x33, 0x34, 0x35, 0x36, 0x37, 0x38, 0x39, 0x61, 0x62, 0x63, 0x64, 0x65, 0x66, 0x67]).drop 15) = [0xd1, 0x03] := by
  decide +kernel

/-- V-MD-11: the second CFB chunk feeds back the ciphertext. -/
theorem test_cfb_feedback :
    ((modeEncrypt .cfb (keyExpand docKey) docIv (rep 32 0x41)).drop 16).take 4 = [0x2e, 0x60, 0x48, 0xfb] := by decide +kernel

/-! ### One step per command -/

/-- V-NC-2: NOP leaves no output. -/
theorem test_nop : after (exec .nop State.reset) (fun t => (t.busy, t.done, t.outValid, t.outLen)) = some (false, true, false, 0) := by
  decide +kernel

/-- V-CF-1: CONFIG CBC with the doc key and IV. -/
theorem test_config :
    after (exec (.config 1 16 16) (loaded (docKey ++ docIv))) (fun t => (t.statusWord, t.key, t.iv, t.rk.head?)) =
      some (0x0000010A, docKey, docIv, some 0x4257CD3B) := by decide +kernel

/-- V-CF-8: the IV check comes before the mode check. -/
theorem test_config_iv_before_mode :
    after (exec (.config 15 16 0) (loaded (docKey ++ docIv))) (fun t => (t.errorWord, t.cfg)) = some (0x00000301, .unconfigured) := by
  decide +kernel

/-- V-DC-7: no mode selects ECB. -/
theorem test_config_default :
    after (exec (.configDefault 16 16) (loaded (docKey ++ docIv))) (fun t => t.statusWord) = some 0x0000000A := by decide +kernel

/-- V-MD-2: CBC of "hello". -/
theorem test_encrypt :
    after (exec .encrypt (configured .cbc hello)) (fun t => (t.outLen, outBytes 17 t)) = some (16, helloCbc ++ [0]) := by decide +kernel

/-- V-LN-4: NOT_CONFIGURED comes before EXCEEDS_CAPACITY. -/
theorem test_encrypt_unconfigured :
    after (exec .encrypt { loaded hello with inLen := 65 }) State.errorWord = some 0x00000501 := by decide +kernel

/-- W-1: DECRYPT of the CBC ciphertext returns "hello". -/
theorem test_decrypt :
    after (exec .decrypt (configured .cbc helloCbc)) (fun t => (t.outLen, outBytes 6 t)) = some (5, hello ++ [0]) := by decide +kernel

/-- V-MD-31: sixteen zero bytes in ECB end in a wrong pad byte. -/
theorem test_decrypt_padding :
    after (exec .decrypt (configured .ecb (rep 16 0))) (fun t => (t.errorWord, t.outLen)) = some (0x00000302, 0) := by decide +kernel

/-- V-VF-1. -/
theorem test_encrypt_verified :
    after (exec .encryptVerified (configured .cbc hello)) (fun t => (t.errorWord, outBytes 16 t)) = some (0, helloCbc) := by decide +kernel

/-- V-VF-3: an empty message in CFB is a valid empty result. -/
theorem test_encrypt_verified_empty :
    after (exec .encryptVerified (configured .cfb [])) (fun t => (t.outValid, t.outLen)) = some (true, 0) := by decide +kernel

/-- V-BK-4: BLOCK_ENC of the doc IV. -/
theorem test_block_enc :
    after (exec .blockEnc (configured .cbc docIv)) (outBytes 4) = some [0xf8, 0x6e, 0xc8, 0xc2] := by decide +kernel

/-- V-LN-5: fifteen bytes are not one block. -/
theorem test_block_enc_short :
    after (exec .blockEnc (configured .cbc (rep 15 1))) State.errorWord = some 0x00000206 := by decide +kernel

/-- V-MD-31: D of the zero block. -/
theorem test_block_dec :
    after (exec .blockDec (configured .ofb (rep 16 0))) (outBytes 4) = some [0xa9, 0x92, 0xdc, 0x83] := by decide +kernel

/-- V-PC-1: PAD on an unconfigured core. -/
theorem test_pad :
    after (exec .pad (loaded hello)) (fun t => (t.statusWord, outBytes 16 t)) = some (0x00000012, helloPadded) := by decide +kernel

/-- V-PD-4: a block-aligned payload gets a whole block. -/
theorem test_pad_aligned :
    after (exec .pad (loaded (rep 16 0x41))) (fun t => (t.outLen, outBytes 32 t)) = some (32, rep 16 0x41 ++ rep 16 0x10) := by decide +kernel

/-- V-PC-3. -/
theorem test_unpad : after (exec .unpad (loaded helloPadded)) (fun t => (t.outLen, outBytes 5 t)) = some (5, hello) := by decide +kernel

/-- V-PC-7: pad value 12 covers a byte 0x6F. -/
theorem test_unpad_wrong_byte :
    after (exec .unpad (loaded (hello ++ rep 10 0x0B ++ [0x0C]))) State.errorWord = some 0x00000302 := by decide +kernel

/-- V-NC-3: CLEAR of a CBC instance. -/
theorem test_clear :
    after (exec .clear (configured .cbc [])) (fun t => (t.statusWord, t.key, t.rk.head?)) = some (0x00000002, rep 16 0, some 0) := by
  decide +kernel

/-- V-CF-14: a key byte never written. -/
theorem test_config_unwritten : faults (exec (.config 0 16 16) (loaded docKey)) = true := by decide +kernel

/-! ### The host port and the lifecycle -/

/-- V-BUS-10: little-endian lanes. -/
theorem test_bus_lanes :
    ((State.reset.access ⟨.write, 32, 0x1000, 0x6C6C6568⟩).access ⟨.read, 8, 0x1001, 0⟩).resp = some (.okRead8 0x65) := by decide +kernel

/-- V-BUS-1, V-BUS-3, V-BUS-4: a byte read of STATUS, a 16-bit access, a misaligned write inside IN_LEN. -/
theorem test_bus_errors :
    (State.reset.access ⟨.read, 8, 0x0004, 0⟩).resp = some .busError ∧ (State.reset.access ⟨.read, 16, 0x1000, 0⟩).resp = some .busError ∧
    (State.reset.access ⟨.write, 32, 0x000E, 1⟩).inLen = 0 := by decide +kernel

/-- V-BUS-9 and V-BUS-12 (IN_CAP = 64): CAPS, and a byte written past the capacity. -/
theorem test_bus_capacity :
    (State.reset.access ⟨.read, 32, 0x0014, 0⟩).resp = some (.okRead32 0x40) ∧
    ((State.reset.access ⟨.write, 8, 0x1040, 0x55⟩).access ⟨.read, 8, 0x1040, 0⟩).resp = some (.okRead8 0) := by decide +kernel

/-- V-BUS-15: a byte never written reads as a free byte. -/
theorem test_bus_unwritten : (State.reset.access ⟨.read, 8, 0x1014, 0⟩).resp = some (.okRead8 (Config.freeByte 0)) := rfl

/-- V-LC-2: a write of IN_LEN while BUSY. -/
theorem test_busy_in_len :
    ((State.reset.accept 0).access ⟨.write, 32, 0x000C, 7⟩).inLen = 0 ∧
    ((State.reset.accept 0).access ⟨.write, 32, 0x000C, 7⟩).ign = true := by decide +kernel

/-- V-DC-1: a reserved opcode completes with ILLEGAL_COMMAND. -/
theorem test_step_illegal : after (step (State.reset.withFetchWord 32 0x0000000A)) State.errorWord = some 0x00000105 := by decide +kernel

/-- The first command after reset, placed, runs in the next step: PAD of an empty payload (V-PC-2). -/
theorem test_step_first_command :
    after (step (State.reset.withFetchWord 32 7)) (fun t => (t.outLen, outBytes 16 t)) = some (16, rep 16 0x10) := by decide +kernel

/-- 30_encoding.md R71: LOAD splits into words and trailing bytes. -/
theorem test_load : load 0 hello = [w32 0x1000 0x6C6C6568, w8 0x1004 0x6F] := by decide +kernel

/-! ### Witnesses: each statement's hypotheses are met together by a concrete state -/

theorem witness_DecodeOfEncode : (Instr.config 15 31 31).wf = true ∧ (Instr.configDefault 0 0).wf = true := by decide
theorem witness_EncodeOfDecode : decode 0x0007FFF1 = .instr (.config 15 31 31) := by decide

theorem witness_StepRunsDecodedCommand :
    let s := pending 7 State.reset
    s.nextTurn = .core ∧ s.busy = true ∧ decode s.pend = .instr .pad := by decide +kernel

theorem witness_PlacedCommandRuns : (Instr.config 15 31 31).wf = true := by decide

theorem witness_IllegalWordCompletes :
    let s := pending 10 State.reset
    let t := pending 0x80000000 State.reset
    (s.nextTurn = .core ∧ s.busy = true ∧ decode s.pend = .illegal .reservedOpcode) ∧
    (t.nextTurn = .core ∧ t.busy = true ∧ decode t.pend = .illegal .reservedBits) := by decide +kernel

theorem witness_IdleMachineStays :
    let s : State := { State.reset with turns := [.core] }
    (s.nextTurn = .core ∧ s.busy = false) ∧
    (State.reset.nextTurn = .host ∧ State.reset.host.prog[State.reset.host.line]? = none) := by decide +kernel

/-- A host with a program of one line, and variable 0 bound to 1. -/
def hostWith (l : HostLine) : State := { State.reset with host := ⟨[l], 0, [(0, 1)]⟩ }

theorem witness_HostLineRuns :
    ((hostWith (r32 4 0)).nextTurn = .host ∧
      (hostWith (r32 4 0)).host.prog[(hostWith (r32 4 0)).host.line]? = some (.access ⟨.read, 32, 4, 0⟩ (some 0))) ∧
    ((hostWith (.bnz 0 1 7)).host.prog[(hostWith (.bnz 0 1 7)).host.line]? = some (.bnz 0 1 7) ∧
      (hostWith (.bnz 0 1 7)).nextTurn = .host ∧ (hostWith (.bnz 0 1 7)).host.var 0 &&& 1 ≠ 0) ∧
    ((hostWith (.bnz 0 2 7)).host.var 0 &&& 2 = 0 ∧ (hostWith (.bnz 0 2 7)).nextTurn = .host) := by decide +kernel

/-- The response of the host's line, and what variables 0 and 5 are bound to after it. -/
def lineResult (l : HostLine) : Option (Option Response × Option Word × Option Word) :=
  after (step (hostWith l)) (fun t => (t.resp, lookup t.host.vars 0, lookup t.host.vars 5))

/-- Each kind of response of an access line: a word read (CAPS, 64) and a byte read (DATA_OUT, 0) bind the variable named, a write and a BusError none. -/
theorem witness_HostLineRuns_responses :
    lineResult (r32 0x14 5) = some (some (.okRead32 64), some 1, some 64) ∧
    lineResult (r8 0x2000 0) = some (some (.okRead8 0), some 0, none) ∧
    lineResult (.access ⟨.write, 32, 0x000C, 7⟩ (some 5)) = some (some .okWrite, some 1, none) ∧
    lineResult (r8 0x04 5) = some (some .busError, some 1, none) := by decide +kernel

theorem witness_ResetEffects : ({ pending 7 State.reset with turns := [.reset] } : State).nextTurn = .reset := by decide +kernel

theorem witness_OnlyResetUnwritesInput :
    (loaded hello).nextTurn ≠ .reset ∧ (loaded hello).inByte 4 ≠ none ∧ (after (step (loaded hello)) (fun _ => ())).isSome = true := by
  decide +kernel

theorem witness_BusyCoreCompletes : (pending 7 State.reset).busy = true := by decide

theorem witness_OnlyUnwrittenInputFaults : faults (step (pending 0x00042101 State.reset)) = true := by decide +kernel

/-- The same state with another IN_LEN. -/
def withLen (n : Word) (s : State) : State := { s with inLen := n }

theorem witness_UnwrittenInputFaults :
    (State.reset.cfg = .unconfigured ∧ ¬ State.reset.InputWritten 32) ∧
    ((withLen 1 (configured .ecb [])).cfg = .configured ∧ (withLen 1 (configured .ecb [])).inLen.toNat ≤ State.reset.inCap ∧
      ¬ (withLen 1 (configured .ecb [])).InputWritten 1) ∧
    ((withLen 16 (configured .ecb (rep 15 1))).inLen = 16 ∧ ¬ (withLen 16 (configured .ecb (rep 15 1))).InputWritten 16) ∧
    ((withLen 64 State.reset).inLen.toNat ≤ State.reset.inCap ∧ ¬ (withLen 64 State.reset).InputWritten 64) :=
  ⟨⟨rfl, fun h => h 0 (by decide) rfl⟩, ⟨rfl, by decide, fun h => h 0 (by decide) rfl⟩,
    ⟨rfl, fun h => h 15 (by decide) (by decide +kernel)⟩, ⟨by decide, fun h => h 0 (by decide) rfl⟩⟩

theorem witness_EveryCommandEnds :
    (loaded (rep 32 1)).InputWritten (inputBytes (.config 0 16 16) (loaded (rep 32 1))) ∧
    (loaded hello).InputWritten (inputBytes .pad (loaded hello)) := by
  refine ⟨fun k hk => ?_, fun k hk => ?_⟩
  · have h : ∀ k < 32, (loaded (rep 32 1)).inByte k ≠ none := by decide +kernel
    exact h k hk
  · have h : ∀ k < 5, (loaded hello).inByte k ≠ none := by decide +kernel
    exact h k hk

/-- DATA_IN holds the doc key and the doc IV. -/
theorem witness_ConfigResult :
    (loaded (docKey ++ docIv)).cfg = .unconfigured ∧ (loaded (docKey ++ docIv)).BlockAt 0 docKey ∧
    (loaded (docKey ++ docIv)).BlockAt 16 docIv := by
  have h : ∀ j < 16, (loaded (docKey ++ docIv)).inByte (0 + j) = some (byteAt docKey j) := by decide +kernel
  have h' : ∀ j < 16, (loaded (docKey ++ docIv)).inByte (16 + j) = some (byteAt docIv j) := by decide +kernel
  exact ⟨rfl, ⟨rfl, h⟩, ⟨rfl, h'⟩⟩

/-- A boundary value for each clause: klen 0, 15, 17; ivlen 0, 15, 17; mode 4 and 15. -/
theorem witness_ConfigErrors :
    State.reset.cfg = .unconfigured ∧ ((15 : Nat) ≠ 0 ∧ (15 : Nat) ≠ 16) ∧ ((17 : Nat) ≠ 0 ∧ (17 : Nat) ≠ 16) ∧
    ((4 : Nat) ≤ 4 ∧ (4 : Nat) < 16) ∧ ((4 : Nat) ≤ 15 ∧ (15 : Nat) < 16) := by decide

theorem witness_ConfigurationStateErrors :
    (isCipher .blockDec = true ∧ State.reset.cfg = .unconfigured) ∧
    (isConfig (.configDefault 16 16) = true ∧ (configured .cbc []).cfg = .configured) := by decide

/-- IN_LEN = IN_CAP + 1 (V-LN-1), 15 and 0 (V-LN-5, V-LN-6). -/
theorem witness_LengthErrors :
    ((withLen 65 (configured .cbc [])).inCap < (withLen 65 (configured .cbc [])).inLen.toNat ∧
      (withLen 65 (configured .cbc [])).cfg = .configured) ∧
    ((withLen 15 (configured .cbc [])).inLen ≠ 16 ∧ (withLen 0 (configured .cbc [])).inLen ≠ 16) := by decide

/-- The payload of `loaded p` and of `configured m p` is `p`, for "hello" and for the empty message. -/
theorem witness_EncryptResult :
    (configured .cfb hello).cfg = .configured ∧ (configured .cfb hello).inLen.toNat ≤ (configured .cfb hello).inCap ∧
    (configured .cfb hello).Payload hello ∧ (configured .ofb []).Payload [] ∧ (configured .cfb hello).iv.length = 16 := by
  have h : ∀ k < 5, (configured .cfb hello).inByte k = some (byteAt hello k) := by decide +kernel
  exact ⟨rfl, by decide, ⟨by decide, h⟩, ⟨by decide, fun k hk => absurd hk (Nat.not_lt_zero k)⟩, rfl⟩

/-- Both clauses: a ciphertext that decrypts, and one that does not (V-MD-31). -/
theorem witness_DecryptResult :
    (configured .cbc helloCbc).Payload helloCbc ∧ (configured .cbc helloCbc).inLen.toNat ≤ (configured .cbc helloCbc).inCap ∧
    (modeDecrypt .cbc (keyExpand docKey) docIv helloCbc).toOption = some hello ∧
    (configured .ecb (rep 16 0)).Payload (rep 16 0) ∧ (configured .ecb (rep 16 0)).inLen.toNat ≤ (configured .ecb (rep 16 0)).inCap ∧
    (modeDecrypt .ecb (keyExpand docKey) docIv (rep 16 0)).toOption = none := by
  have h : ∀ k < 16, (configured .cbc helloCbc).inByte k = some (byteAt helloCbc k) := by decide +kernel
  have h' : ∀ k < 16, (configured .ecb (rep 16 0)).inByte k = some (byteAt (rep 16 0) k) := by decide +kernel
  exact ⟨⟨by decide, h⟩, by decide, by decide +kernel, ⟨by decide, h'⟩, by decide, by decide +kernel⟩

theorem witness_EncryptVerifiedResult :
    (configured .cfb hello).cfg = .configured ∧ (configured .cfb hello).iv.length = 16 ∧ (configured .cfb hello).Payload hello :=
  ⟨rfl, rfl, witness_EncryptResult.2.2.1⟩

theorem witness_BlockCommandResults :
    (configured .cbc docIv).cfg = .configured ∧ (configured .cbc docIv).inLen = 16 ∧ (configured .cbc docIv).BlockAt 0 docIv := by
  have h : ∀ j < 16, (configured .cbc docIv).inByte (0 + j) = some (byteAt docIv j) := by decide +kernel
  exact ⟨rfl, by decide, rfl, h⟩

theorem witness_PadResult : (loaded hello).inLen.toNat ≤ (loaded hello).inCap ∧ (loaded hello).Payload hello := by
  have h : ∀ k < 5, (loaded hello).inByte k = some (byteAt hello k) := by decide +kernel
  exact ⟨by decide, by decide, h⟩

/-- The last bytes of payloads for each clause: length 17; pad value 0 and 17; pad value 2 with a wrong byte; valid padding. -/
theorem witness_UnpadResult :
    (loaded helloPadded).Payload helloPadded ∧ (loaded helloPadded).inLen.toNat ≤ (loaded helloPadded).inCap ∧
    (rep 17 1 : Bytes).length % 16 ≠ 0 ∧ (byteAt (rep 15 0x41 ++ [0]) 15).toNat = 0 ∧ 16 < (byteAt (rep 15 0x41 ++ [0x11]) 15).toNat ∧
    (byteAt (rep 14 0x41 ++ [3, 2]) 14).toNat ≠ (byteAt (rep 14 0x41 ++ [3, 2]) 15).toNat ∧
    (∀ k, 5 ≤ k → k < 16 → (byteAt helloPadded k).toNat = 11) := by
  have h : ∀ k < 16, (loaded helloPadded).inByte k = some (byteAt helloPadded k) := by decide +kernel
  have h' : ∀ k < 16, 5 ≤ k → (byteAt helloPadded k).toNat = 11 := by decide
  exact ⟨⟨by decide, h⟩, by decide, by decide, by decide, by decide, by decide, fun k h5 h16 => h' k h16 h5⟩

theorem witness_RoundsRecurrence : (keyExpand docKey).length = 32 := by decide +kernel
theorem witness_BlockRoundTrip : docKey.length = 16 := rfl

/-- A sequence that `unpad` accepts. -/
theorem witness_PadUnpadInverse : (unpad helloPadded).toOption = some hello := by decide +kernel

theorem witness_ModeRoundTrip : docIv.length = 16 := rfl

theorem witness_VerifierNeverMismatches :
    (configured .ecb []).iv.length = 16 ∧ (configured .ecb []).errCode ≠ 4 ∧
    (after (exec .encryptVerified (configured .ecb [])) (fun t => t.errCode)) = some 0 := by decide +kernel

/-- Equal blocks of two messages, the last whole block of each; the lengths 0, 17 and 16 of a ciphertext; a block of a padded message. -/
theorem witness_EcbRepeatsBlocks :
    16 * (1 + 1) ≤ (rep 33 0x41).length ∧ 16 * (0 + 1) ≤ (rep 16 0x41).length ∧ pieceAt (rep 33 0x41) 1 = pieceAt (rep 16 0x41) 0 ∧
    ([] : Bytes).length = 0 ∧ (rep 17 0).length % 16 ≠ 0 ∧ ((rep 16 0).length ≠ 0 ∧ (rep 16 0).length % 16 = 0) ∧
    0 < (pad []).length / 16 := by decide

/-- The lengths of a ciphertext for each clause; the last block of a padded message. -/
theorem witness_CbcChainsBlocks :
    docIv.length = 16 ∧ ([] : Bytes).length = 0 ∧ (rep 17 0).length % 16 ≠ 0 ∧
    (helloCbc.length ≠ 0 ∧ helloCbc.length % 16 = 0 ∧ 0 < helloCbc.length / 16) ∧ 1 < (pad (rep 16 0x41)).length / 16 := by decide

/-- A byte in a short last chunk, the second one. -/
theorem witness_CfbFeedsBackCiphertext : 16 < (rep 17 0x41).length ∧ 16 / 16 = 1 := by decide

theorem witness_OfbByteDifferences : 16 < (rep 17 0x41).length ∧ hello.length = [0x68, 0x65, 0x6C, 0x6C, (0x78 : Byte)].length ∧ 4 < hello.length := by decide
theorem witness_IvChangesCiphertext : docIv.length = 16 ∧ docKey.length = 16 ∧ docIv ≠ docKey ∧ 16 ≤ (rep 16 0).length := by decide

/-- V-MD-22: the CBC ciphertext of "hello" with byte 5 changed. -/
theorem witness_CorruptionIsNeverTheOriginal :
    (helloCbc.set 5 0xab).length = (modeEncrypt .cbc (keyExpand docKey) docIv hello).length ∧
    helloCbc.set 5 0xab ≠ modeEncrypt .cbc (keyExpand docKey) docIv hello := by decide +kernel

theorem witness_AcceptanceEffects : State.reset.busy = false := rfl

/-- The state after reset meets the invariant, so does one whose core is busy. -/
theorem witness_Inv : State.reset.Inv ∧ (State.reset.accept 7).Inv ∧ (State.reset.accept 7).busy = true := by
  have h : State.reset.Inv :=
    { capacity := by decide
      engine := ⟨fun h => by simp [State.reset, State.resetWith] at h, fun _ => ⟨rfl, rfl, rfl, rfl⟩⟩
      memory := ⟨by decide, by decide⟩
      bounds := ⟨fun _ _ => rfl, fun _ _ => rfl, by decide⟩
      status := by unfold State.StatusOk; decide
      busy := by unfold State.BusyOk; decide
      vars := by decide }
  exact ⟨h,
    { capacity := by decide
      engine := h.engine
      memory := ⟨by decide, by decide⟩
      bounds := ⟨fun _ _ => rfl, fun _ _ => rfl, by decide⟩
      status := by unfold State.StatusOk; decide
      busy := by unfold State.BusyOk; decide
      vars := by decide }, rfl⟩

theorem witness_BusyWritesDropped :
    Access.legal ⟨.write, 32, 0x000C, 7⟩ = true ∧ Access.legal ⟨.write, 8, 0x103F, 7⟩ = true ∧ Access.legal ⟨.write, 32, 0x1040, 7⟩ = true := by
  decide

/-- An illegal access for each case, at the boundary: width 16, offset 0x1002, a byte at 0x0FFF; and a legal one. -/
theorem witness_IllegalAccessesAreBusErrors :
    ((16 : Nat) ≠ 8 ∧ (16 : Nat) ≠ 32) ∧ (0x1002#14).toNat % 4 ≠ 0 ∧ (0x0FFF#14).toNat < 0x1000 ∧ ¬ (0x1000#14).toNat < 0x1000 := by decide

theorem witness_MixedWidthsSeeOneArray : inCapLegal State.reset.inCap = true ∧ State.reset.busy = false ∧ 4 * 15 + 3 < State.reset.inCap := by
  decide

theorem witness_DataInWrites :
    inCapLegal State.reset.inCap = true ∧ 63 < State.reset.inCap ∧ 60 < State.reset.inCap ∧ 60 % 4 = 0 ∧ State.reset.busy = false ∧
    (State.reset.accept 0).busy = true := by decide

/-- Bytes 4 (written) and 5 (not), the word at 4 with lanes of both kinds, and the last word, at 60. -/
theorem witness_DataInReads :
    inCapLegal (loaded hello).inCap = true ∧ 5 < (loaded hello).inCap ∧ (loaded hello).inByte 4 = some 0x6F ∧ (loaded hello).inByte 5 = none ∧
    (4 < (loaded hello).inCap ∧ 4 % 4 = 0) ∧ (60 < (loaded hello).inCap ∧ 60 % 4 = 0) := by
  decide +kernel

/-- 20_memory.md R46, R49: a word with one written lane draws one free byte for each of the other three. -/
theorem test_bus_word_unwritten :
    ((loaded hello).access ⟨.read, 32, 0x1004, 0⟩).draws = 3 ∧ ((loaded hello).access ⟨.read, 32, 0x1000, 0⟩).draws = 0 := by
  decide +kernel

theorem witness_DataOutReads : State.reset.Inv ∧ 79 < State.reset.outCap ∧ 76 < State.reset.outCap ∧ 76 % 4 = 0 :=
  ⟨witness_Inv.1, by decide, by decide, by decide⟩

theorem witness_ReadsHaveNoSideEffect : (loaded (rep 64 7)).InputWritten (loaded (rep 64 7)).inCap := fun k hk => by
  have h : ∀ k < 64, (loaded (rep 64 7)).inByte k ≠ none := by decide +kernel
  exact h k hk

theorem witness_RegisterAccesses : State.reset.busy = false := rfl
theorem witness_RegisterFields : inCapLegal State.reset.inCap = true := by decide

/-- Holes at their boundaries: 0x18, 0x1040 = 0x1000 + IN_CAP, 0x2050 = 0x2000 + OUT_CAP, 0x3000; and writes to STATUS and DATA_OUT. -/
theorem witness_ReservedOffsets :
    inCapLegal State.reset.inCap = true ∧ Access.legal ⟨.read, 32, 0x0018, 0⟩ = true ∧ Access.legal ⟨.read, 8, 0x1040, 0⟩ = true ∧
    0x1000 + State.reset.inCap ≤ (0x1040#14).toNat ∧ 0x2000 + State.reset.outCap ≤ (0x2050#14).toNat ∧
    Access.legal ⟨.write, 32, 0x0004, 0⟩ = true ∧ Access.legal ⟨.write, 8, 0x2FFF, 0⟩ = true := by decide

/-- The least and the greatest capacity; a state that meets the invariant and steps. -/
theorem witness_InvariantKept :
    (inCapLegal 32 = true ∧ inCapLegal 4080 = true) ∧ State.reset.Inv ∧ (after (step (State.reset)) (fun _ => ())).isSome = true :=
  ⟨by decide, witness_Inv.1, by decide +kernel⟩

theorem witness_EngineInvariantKept : State.reset.EngineOk ∧ (after (step State.reset) (fun _ => ())).isSome = true :=
  ⟨witness_Inv.1.engine, by decide +kernel⟩

theorem witness_EngineImmutable : (after (step (pending 9 (configured .cbc []))) (fun t => t.cfg)) = some .unconfigured := by decide +kernel

theorem witness_ErrorsArePrecise :
    State.reset.errCode = 0 ∧ after (exec .encrypt State.reset) (fun t => t.errCode) = some 1 := by decide +kernel

theorem witness_ErrorKindsByCommand :
    State.reset.iv.length = 16 ∧ State.reset.errCode = 0 ∧ after (exec (.config 4 16 16) State.reset) (fun t => t.errCode) = some 3 := by
  decide +kernel

theorem witness_IvUnusedInEcb :
    isConfig .encrypt = false ∧ Instr.encrypt ≠ .clear ∧ (configured .ecb hello).mode = .ecb ∧
    (after (exec .encrypt (configured .ecb hello)) (fun _ => ())).isSome = true ∧
    (after (exec .blockEnc (configured .ecb docIv)) (fun _ => ())).isSome = true := by decide +kernel

end Sys2Proof.Tests
end

/-! The engine, that is CFG, KEY, IV, MODE and RK (10_state.md R22): which commands' results update it, which agents leave it alone,
and that every step keeps the rule R29. -/

namespace Sys2Proof.Machine

/-! ### A command that succeeds has passed its checks

One inversion per check of 40_command_execution.md R77, R78: the check let the rest of the body through. -/

theorem withInput_success {s : State} {k n : Nat} {body : Bytes → CmdResult} {u : Option Engine} {o : Option Bytes}
    (h : withInput s k n body = .success u o) :
    ∃ v, v.length = n ∧ (∀ j < n, s.inByte (k + j) = some (byteAt v j)) ∧ body v = .success u o := by
  obtain ⟨v, hlen, hbytes, heq⟩ | ⟨-, heq⟩ := withInput_cases s k n body
  · exact ⟨v, hlen, hbytes, heq ▸ h⟩
  · simp [heq] at h

theorem requireConfigured_success {s : State} {body : CmdResult} {u : Option Engine} {o : Option Bytes}
    (h : requireConfigured s body = .success u o) : s.cfg = .configured ∧ body = .success u o := by
  cases hc : s.cfg with
  | configured => exact ⟨rfl, requireConfigured_configured body hc ▸ h⟩
  | unconfigured => simp [requireConfigured_unconfigured body hc] at h

theorem requireOneBlock_success {s : State} {body : CmdResult} {u : Option Engine} {o : Option Bytes}
    (h : requireOneBlock s body = .success u o) : s.inLen = 16 ∧ body = .success u o := by
  by_cases hb : s.inLen = 16
  · exact ⟨hb, requireOneBlock_block body hb ▸ h⟩
  · simp [requireOneBlock_other body hb] at h

theorem requireCapacity_success {s : State} {body : CmdResult} {u : Option Engine} {o : Option Bytes}
    (h : requireCapacity s body = .success u o) : s.inLen.toNat ≤ s.inCap ∧ body = .success u o := by
  by_cases hc : s.inLen.toNat ≤ s.inCap
  · exact ⟨hc, requireCapacity_fits body hc ▸ h⟩
  · simp [requireCapacity_exceeds body (Nat.lt_of_not_le hc)] at h

theorem withPayload_success {s : State} {body : Bytes → CmdResult} {u : Option Engine} {o : Option Bytes}
    (h : withPayload s body = .success u o) : ∃ p, body p = .success u o := by
  obtain ⟨-, h⟩ := requireCapacity_success h
  obtain ⟨p, -, -, h⟩ := withInput_success h
  exact ⟨p, h⟩

/-! ### Which results update the engine -/

theorem emit_success {r : Except CmdError Bytes} {u : Option Engine} {o : Option Bytes} (h : emit r = .success u o) :
    u = none := by
  cases r with
  | ok p => cases h; rfl
  | error e => cases h

theorem cipherBody_success {f : Mode → List Word → Bytes → Bytes → Except CmdError Bytes} {s : State} {u : Option Engine}
    {o : Option Bytes} (h : cipherBody f s = .success u o) : u = none := by
  obtain ⟨-, h⟩ := requireConfigured_success h
  obtain ⟨p, h⟩ := withPayload_success h
  exact emit_success h

theorem blockBody_success {f : List Word → Bytes → Bytes} {s : State} {u : Option Engine} {o : Option Bytes}
    (h : blockBody f s = .success u o) : u = none := by
  obtain ⟨-, h⟩ := requireConfigured_success h
  obtain ⟨-, h⟩ := requireOneBlock_success h
  obtain ⟨b, -, -, h⟩ := withInput_success h
  cases h; rfl

/-- A CONFIG that succeeds found the core unconfigured and creates the engine of the key and IV in DATA_IN (41_key_schedule.md R90). -/
theorem configBody_success {mode : Option Nat} {klen ivlen : Nat} {s : State} {u : Option Engine} {o : Option Bytes}
    (h : configBody mode klen ivlen s = .success u o) :
    s.cfg = .unconfigured ∧ ∃ m key iv, s.BlockAt 0 key ∧ s.BlockAt 16 iv ∧ u = some (newEngine m key iv) := by
  unfold configBody at h
  split at h
  · cases h
  next hcfg =>
    have hun : s.cfg = .unconfigured := by
      cases hc : s.cfg with
      | unconfigured => rfl
      | configured => exact absurd hc hcfg
    iterate 4 (split at h; · cases h)
    split at h
    · cases h
    next m _ =>
      obtain ⟨key, hkl, hkey, h⟩ := withInput_success h
      obtain ⟨iv, hil, hiv, h⟩ := withInput_success h
      cases h
      exact ⟨hun, m, key, iv, ⟨hkl, hkey⟩, ⟨hil, hiv⟩, rfl⟩

/-- The engine updates a command's success can carry: CLEAR destroys it, a CONFIG of an unconfigured core creates one (R22). -/
def EngineUpdate (i : Instr) (s : State) (e : Engine) : Prop :=
  (i = .clear ∧ e = clearedEngine) ∨
  (isConfig i = true ∧ s.cfg = .unconfigured ∧ ∃ m key iv, s.BlockAt 0 key ∧ s.BlockAt 16 iv ∧ e = newEngine m key iv)

theorem resultOf_engineUpdate {i : Instr} {s : State} {e : Engine} {o : Option Bytes}
    (h : resultOf i s = .success (some e) o) : EngineUpdate i s e := by
  have config {mode klen ivlen} (h : configBody mode klen ivlen s = .success (some e) o) :
      s.cfg = .unconfigured ∧ ∃ m key iv, s.BlockAt 0 key ∧ s.BlockAt 16 iv ∧ e = newEngine m key iv := by
    simpa using configBody_success h
  cases i <;> dsimp only [resultOf] at h
  case nop => cases h
  case config => exact .inr ⟨rfl, config h⟩
  case configDefault => exact .inr ⟨rfl, config h⟩
  case encrypt | decrypt | encryptVerified => cases cipherBody_success h
  case blockEnc | blockDec => cases blockBody_success h
  case pad => obtain ⟨p, h⟩ := withPayload_success h; cases h
  case unpad => obtain ⟨q, h⟩ := withPayload_success h; cases emit_success h
  case clear => cases h; exact .inl ⟨rfl, rfl⟩

/-! ### What the agents do to the engine -/

theorem EngineUnchanged.refl (s : State) : EngineUnchanged s s := ⟨rfl, rfl, rfl, rfl, rfl⟩

theorem EngineUnchanged.trans {s t u : State} (h : EngineUnchanged s t) (h' : EngineUnchanged t u) : EngineUnchanged s u := by
  obtain ⟨hcfg, hkey, hiv, hmode, hrk⟩ := h
  obtain ⟨hcfg', hkey', hiv', hmode', hrk'⟩ := h'
  exact ⟨hcfg'.trans hcfg, hkey'.trans hkey, hiv'.trans hiv, hmode'.trans hmode, hrk'.trans hrk⟩

theorem State.writeLane_engineUnchanged (off : Nat) (v : Byte) (s : State) : EngineUnchanged s (s.writeLane off v) := by
  obtain ⟨-, h⟩ | ⟨k, -, -, h⟩ | ⟨k, -, -, h⟩ := State.writeLane_cases off v s <;> rw [h] <;> exact ⟨rfl, rfl, rfl, rfl, rfl⟩

theorem State.writeLanes_engineUnchanged (off : Nat) (vs : Bytes) (s : State) : EngineUnchanged s (s.writeLanes off vs) := by
  induction vs generalizing off s with
  | nil => exact .refl s
  | cons v vs ih => exact (s.writeLane_engineUnchanged off v).trans (ih (off + 1) (s.writeLane off v))

theorem State.writeRegister_engineUnchanged (off : Nat) (w : Word) (s : State) : EngineUnchanged s (s.writeRegister off w) := by
  obtain h | ⟨-, h⟩ | ⟨-, -, h⟩ | ⟨-, -, h⟩ := State.writeRegister_cases off w s <;> rw [h] <;> exact ⟨rfl, rfl, rfl, rfl, rfl⟩

theorem State.writeAccess_engineUnchanged (width off : Nat) (w : Word) (s : State) :
    EngineUnchanged s (s.writeAccess width off w) := by
  unfold State.writeAccess
  split
  · exact s.writeLane_engineUnchanged off _
  · split
    · exact s.writeRegister_engineUnchanged off w
    · exact s.writeLanes_engineUnchanged off _

/-- "No host write reaches `KEY`, `IV`, `MODE` or `RK` directly" (R22), and no read does. -/
theorem State.access_engineUnchanged (a : Access) (s : State) : EngineUnchanged s (s.access a) := by
  unfold State.access
  split
  · split
    · obtain ⟨n, r, h⟩ := State.readAccess_frame a.width a.off.toNat s
      rw [h]; exact ⟨rfl, rfl, rfl, rfl, rfl⟩
    · exact s.writeAccess_engineUnchanged a.width a.off.toNat a.wdata
  · exact ⟨rfl, rfl, rfl, rfl, rfl⟩

theorem State.hostStep_engineUnchanged (s : State) : EngineUnchanged s s.hostStep := by
  unfold State.hostStep
  split
  next l _ =>
    cases l with
    | access a bind => exact s.access_engineUnchanged a
    | bnz name mask target => exact .refl s
  · exact .refl s

/-- Completing a result changes the engine only by the update a success carries, which leaves ERROR as it was. -/
theorem complete_engine {r : CmdResult} {s t : State} (h : complete r s = .next t) :
    EngineUnchanged s t ∨
    ∃ e out, r = .success (some e) out ∧ t.errCode = s.errCode ∧ EngineUnchanged (s.withEngine e) t := by
  obtain ⟨upd, rfl, rfl⟩ | ⟨upd, out, rfl, rfl⟩ | ⟨e, rfl, rfl⟩ := complete_cases h
  · cases upd with
    | none => exact .inl ⟨rfl, rfl, rfl, rfl, rfl⟩
    | some e => exact .inr ⟨e, none, rfl, rfl, rfl, rfl, rfl, rfl, rfl⟩
  · cases upd with
    | none => exact .inl ⟨rfl, rfl, rfl, rfl, rfl⟩
    | some e => exact .inr ⟨e, some out, rfl, rfl, rfl, rfl, rfl, rfl, rfl⟩
  · exact .inl ⟨rfl, rfl, rfl, rfl, rfl⟩

/-- Everything a step can do to the engine: leave it, reset it, or apply the update of the command in PEND. -/
theorem step_engine_cases {s t : State} (h : step s = .next t) :
    EngineUnchanged s t ∨
    (s.nextTurn = .reset ∧ EngineUnchanged (s.withEngine clearedEngine) t) ∨
    (s.nextTurn = .core ∧ s.busy = true ∧ ∃ i e, decode s.pend = .instr i ∧ EngineUpdate i s e ∧ t.errCode = s.errCode ∧
      EngineUnchanged (s.withEngine e) t) := by
  obtain ⟨hturn, hbusy, hc⟩ | ⟨-, -, rfl⟩ | ⟨-, rfl⟩ | ⟨hturn, rfl⟩ := step_cases h
  · obtain ⟨i, hi, hexec⟩ | ⟨r, -, hrep⟩ := completion_cases s.endTurn
    · rw [hexec, exec_eq_complete] at hc
      obtain hsame | ⟨e, out, hr, herr, heng⟩ := complete_engine hc
      · exact .inl hsame
      · exact .inr (.inr ⟨hturn, hbusy, i, e, hi, resultOf_engineUpdate hr, herr, heng⟩)
    · rw [hrep] at hc
      cases hc
      exact .inl ⟨rfl, rfl, rfl, rfl, rfl⟩
  · exact .inl ⟨rfl, rfl, rfl, rfl, rfl⟩
  · exact .inl s.endTurn.hostStep_engineUnchanged
  · exact .inr (.inl ⟨hturn, rfl, rfl, rfl, rfl, rfl⟩)

/-! ### The rule R29 -/

theorem State.EngineOk.of_engineUnchanged {s t : State} (hs : s.EngineOk) (h : EngineUnchanged s t) : t.EngineOk := by
  obtain ⟨hcfg, hkey, hiv, hmode, hrk⟩ := h
  rw [State.EngineOk, hcfg, hkey, hiv, hmode, hrk]
  exact hs

theorem State.withEngine_clearedEngine_engineOk (s : State) : (s.withEngine clearedEngine).EngineOk :=
  ⟨nofun, fun _ => ⟨rfl, rfl, rfl, rfl⟩⟩

theorem State.withEngine_newEngine_engineOk (s : State) (m : Mode) {key iv : Bytes} (hkey : key.length = 16) (hiv : iv.length = 16) :
    (s.withEngine (newEngine m key iv)).EngineOk :=
  ⟨fun _ => ⟨rfl, hkey, hiv⟩, nofun⟩

theorem State.resetWith_engineOk (cap : Nat) : (State.resetWith cap).EngineOk :=
  (State.resetWith cap).withEngine_clearedEngine_engineOk

theorem EngineUpdate.engineOk {i : Instr} {s : State} {e : Engine} (h : EngineUpdate i s e) : (s.withEngine e).EngineOk := by
  obtain ⟨-, rfl⟩ | ⟨-, -, m, key, iv, ⟨hkey, -⟩, ⟨hiv, -⟩, rfl⟩ := h
  · exact s.withEngine_clearedEngine_engineOk
  · exact s.withEngine_newEngine_engineOk m hkey hiv

theorem step_keeps_engineOk {s t : State} (hs : s.EngineOk) (h : step s = .next t) : t.EngineOk := by
  obtain hsame | ⟨-, hreset⟩ | ⟨-, -, i, e, -, hupd, -, heng⟩ := step_engine_cases h
  · exact hs.of_engineUnchanged hsame
  · exact s.withEngine_clearedEngine_engineOk.of_engineUnchanged hreset
  · exact hupd.engineOk.of_engineUnchanged heng

theorem Mode.code_legal (m : Mode) : m.code.toNat = 0 ∨ m.code.toNat = 1 ∨ m.code.toNat = 2 ∨ m.code.toNat = 3 := by
  cases m <;> decide

/-- Settles O55: a step leaves the engine alone, or installs a cleared one, or one just built from a key. -/
theorem engineInvariantKept : Obligations.EngineInvariantKept :=
  ⟨fun _ _ => step_keeps_engineOk, State.resetWith_engineOk, Mode.code_legal⟩

end Sys2Proof.Machine

/-! The host port (20_memory.md): which accesses are legal, what a legal access does lane by lane, and what the two buffer windows and
the reserved offsets answer. -/

namespace Sys2Proof.Machine

theorem inCapLegal_iff {cap : Nat} : inCapLegal cap = true ↔ cap % 16 = 0 ∧ 32 ≤ cap ∧ cap ≤ 4080 := by
  simp [inCapLegal, and_assoc]

theorem inCapLegal_le {cap : Nat} (h : inCapLegal cap = true) : cap ≤ 4080 := by
  obtain ⟨-, -, hle⟩ := inCapLegal_iff.1 h
  exact hle

/-! ### Lanes and cells -/

theorem bytesLE_getD (w : Word) {i : Nat} (hi : i < 4) : (bytesLE w).getD i 0 = lane w i := by
  interval_cases i <;> rfl

/-- The byte of an 8-bit write is the word's low lane. -/
theorem lane_setWidth (b : Byte) : lane (b.setWidth 32) 0 = b := by
  rw [lane, BitVec.extractLsb'_setWidth_of_le (by decide)]
  exact BitVec.extractLsb'_eq_self

theorem Memory.writeBytes_append (b : Buffer) (m : List Host.Cell) (a : Nat) (vs ws : Bytes) :
    Memory.writeBytes b m a (vs ++ ws) = Memory.writeBytes b (Memory.writeBytes b m a vs) (a + vs.length) ws := by
  induction vs generalizing m a with
  | nil => rfl
  | cons v vs ih =>
    rw [List.cons_append, Memory.writeBytes, ih, Memory.writeBytes, List.length_cons, Nat.add_assoc, Nat.add_comm 1]

/-! ### Legality (R45) -/

theorem Access.legal_iff {a : Access} :
    a.legal = true ↔ a.width = 8 ∧ inWindow ≤ a.off.toNat ∨ a.width = 32 ∧ a.off.toNat % 4 = 0 := by
  simp [Access.legal]

theorem Access.illegal_iff {a : Access} :
    a.legal ≠ true ↔
      (a.width ≠ 8 ∧ a.width ≠ 32) ∨ (a.width = 32 ∧ a.off.toNat % 4 ≠ 0) ∨ (a.width = 8 ∧ a.off.toNat < 0x1000) := by
  rw [Ne, Access.legal_iff]
  unfold inWindow
  omega

theorem State.access_illegal (s : State) {a : Access} (h : a.legal ≠ true) : s.access a = s.respond .busError := by
  rw [State.access, if_neg h]

theorem State.access_read (s : State) {a : Access} (h : a.legal = true) (hdir : a.dir = .read) :
    s.access a = s.readAccess a.width a.off.toNat := by
  rw [State.access, if_pos h, hdir]

theorem State.access_write (s : State) {a : Access} (h : a.legal = true) (hdir : a.dir = .write) :
    s.access a = (s.writeAccess a.width a.off.toNat a.wdata).respond .okWrite := by
  rw [State.access, if_pos h, hdir]

theorem State.readAccess_ne_busError (width off : Nat) (s : State) : (s.readAccess width off).resp ≠ some .busError := by
  unfold State.readAccess
  split
  · simp
  · split <;> simp

theorem State.access_legal_ne_busError (s : State) {a : Access} (h : a.legal = true) : (s.access a).resp ≠ some .busError := by
  cases hdir : a.dir with
  | read => rw [s.access_read h hdir]; exact State.readAccess_ne_busError _ _ s
  | write => simp [s.access_write h hdir]

/-- Settles O45: the three cases are what `Access.legal` leaves out, and only an illegal access gets BusError. -/
theorem illegalAccessesAreBusErrors : Obligations.IllegalAccessesAreBusErrors := by
  intro s a
  rw [← Access.illegal_iff, not_not]
  exact ⟨s.access_illegal, s.access_legal_ne_busError⟩

/-! ### Accesses to the windows, at the offsets a host writes as numbers -/

/-- The accesses at a buffer window's offset that are legal: a byte, or an aligned word. -/
def WindowAccess (width off : Nat) : Prop := width = 8 ∨ width = 32 ∧ off % 4 = 0

theorem Access.legal_window {dir : Dir} {width off : Nat} {w : Word} (hw : WindowAccess width off) (hlow : inWindow ≤ off)
    (hhigh : off < 2 ^ 14) : Access.legal ⟨dir, width, BitVec.ofNat 14 off, w⟩ = true := by
  simp only [Access.legal_iff, BitVec.toNat_ofNat, Nat.mod_eq_of_lt hhigh]
  exact hw.imp_left (⟨·, hlow⟩)

theorem State.access_read_window (s : State) {width off : Nat} (x : Word) (hw : WindowAccess width off) (hlow : inWindow ≤ off)
    (hhigh : off < 2 ^ 14) : s.access ⟨.read, width, BitVec.ofNat 14 off, x⟩ = s.readAccess width off := by
  rw [s.access_read (Access.legal_window hw hlow hhigh) rfl, BitVec.toNat_ofNat, Nat.mod_eq_of_lt hhigh]

theorem State.access_write_window (s : State) {width off : Nat} (w : Word) (hw : WindowAccess width off) (hlow : inWindow ≤ off)
    (hhigh : off < 2 ^ 14) :
    s.access ⟨.write, width, BitVec.ofNat 14 off, w⟩ = (s.writeAccess width off w).respond .okWrite := by
  rw [s.access_write (Access.legal_window hw hlow hhigh) rfl, BitVec.toNat_ofNat, Nat.mod_eq_of_lt hhigh]

/-! ### Reads, lane by lane (R46) -/

/-- The lane at a window offset reads as the byte `b` and draws no free byte. -/
def State.LaneReads (s : State) (off : Nat) (b : Byte) : Prop := ∀ draws, s.readLane draws off = (b, draws)

theorem State.readAccess_byte {s : State} {off : Nat} {b : Byte} (h : s.LaneReads off b) :
    s.readAccess 8 off = s.respond (.okRead8 b) := by
  simp only [State.readAccess, h s.draws]
  rfl

theorem State.readAccess_word {s : State} {off : Nat} {b : Nat → Byte} (hlow : inWindow ≤ off)
    (h : ∀ i < 4, s.LaneReads (off + i) (b i)) :
    s.readAccess 32 off = s.respond (.okRead32 (le32 (b 0) (b 1) (b 2) (b 3))) := by
  have h0 : s.LaneReads off (b 0) := h 0 (by decide)
  have h1 := h 1 (by decide)
  have h2 := h 2 (by decide)
  have h3 := h 3 (by decide)
  have hlanes : s.readLanes s.draws off = (le32 (b 0) (b 1) (b 2) (b 3), s.draws) := by
    simp only [State.readLanes, h0 _, h1 _, h2 _, h3 _]
  rw [State.readAccess, if_neg (by decide), if_neg (Nat.not_lt.2 hlow), hlanes]
  rfl

theorem State.access_read8_window (s : State) {off : Nat} {b : Byte} (x : Word) (hlow : inWindow ≤ off) (hhigh : off < 2 ^ 14)
    (h : s.LaneReads off b) : s.access ⟨.read, 8, BitVec.ofNat 14 off, x⟩ = s.respond (.okRead8 b) := by
  rw [s.access_read_window x (.inl rfl) hlow hhigh, State.readAccess_byte h]

theorem State.access_read32_window (s : State) {off : Nat} {b : Nat → Byte} (x : Word) (hlow : inWindow ≤ off) (hhigh : off < 2 ^ 14)
    (hal : off % 4 = 0) (h : ∀ i < 4, s.LaneReads (off + i) (b i)) :
    s.access ⟨.read, 32, BitVec.ofNat 14 off, x⟩ = s.respond (.okRead32 (le32 (b 0) (b 1) (b 2) (b 3))) := by
  rw [s.access_read_window x (.inr ⟨rfl, hal⟩) hlow hhigh, State.readAccess_word hlow h]

/-! ### Writes, lane by lane (R46, R48; 40_command_execution.md R74) -/

/-- The bytes a write of a supported width carries, the byte of the lowest offset first. -/
def writtenBytes (width : Nat) (w : Word) : Bytes := if width = 8 then [lane w 0] else bytesLE w

theorem writtenBytes_ne_nil (width : Nat) (w : Word) : writtenBytes width w ≠ [] := by
  unfold writtenBytes
  split <;> exact List.cons_ne_nil _ _

theorem State.writeAccess_window (s : State) {width off : Nat} (w : Word) (hlow : inWindow ≤ off) :
    s.writeAccess width off w = s.writeLanes off (writtenBytes width w) := by
  rw [State.writeAccess, writtenBytes, if_neg (Nat.not_lt.2 hlow)]
  split <;> rfl

/-- Store bytes from DATA_IN index `k` upwards. -/
def State.storeBytes (k : Nat) (vs : Bytes) (s : State) : State := { s with dataIn := Memory.writeBytes .dataIn s.dataIn k vs }

theorem State.inByte_storeBytes_inside (s : State) (k : Nat) {vs : Bytes} {j : Nat} (hj : j < vs.length) :
    (s.storeBytes k vs).inByte (k + j) = some (vs.getD j 0) :=
  Memory.read_writeBytes_inside .dataIn vs s.dataIn k hj

theorem State.inByte_storeBytes_outside (s : State) {k x : Nat} {vs : Bytes} (hx : x < k ∨ k + vs.length ≤ x) :
    (s.storeBytes k vs).inByte x = s.inByte x :=
  Memory.read_writeBytes_outside .dataIn vs s.dataIn hx

theorem State.inIndex_dataIn {s : State} {k : Nat} (hk : k < s.inCap) (hcap : s.inCap ≤ 4080) :
    s.inIndex (inWindow + k) = some k := by
  rw [State.inIndex, if_pos (by unfold inWindow outWindow; omega), Nat.add_sub_cancel_left]

theorem State.inIndex_outside {s : State} {off : Nat} (h : off < inWindow ∨ inWindow + s.inCap ≤ off ∨ outWindow ≤ off) :
    s.inIndex off = none := by
  rw [State.inIndex, if_neg (by omega)]

theorem State.writeLane_idle {s : State} {off k : Nat} (v : Byte) (h : s.inIndex off = some k) (hb : s.busy = false) :
    s.writeLane off v = s.storeIn k v := by
  simp [State.writeLane, h, hb]

theorem State.writeLane_busy {s : State} {off k : Nat} (v : Byte) (h : s.inIndex off = some k) (hb : s.busy = true) :
    s.writeLane off v = s.dropWrite := by
  simp [State.writeLane, h, hb]

theorem State.writeLanes_idle {s : State} (vs : Bytes) {k : Nat} (hb : s.busy = false) (hcap : s.inCap ≤ 4080)
    (hk : k + vs.length ≤ s.inCap) : s.writeLanes (inWindow + k) vs = s.storeBytes k vs := by
  induction vs generalizing s k with
  | nil => rfl
  | cons v vs ih =>
    rw [List.length_cons] at hk
    rw [State.writeLanes, State.writeLane_idle v (State.inIndex_dataIn (by omega) hcap) hb, Nat.add_assoc]
    exact ih (s := s.storeIn k v) hb hcap (by rw [State.storeIn_inCap]; omega)

theorem State.writeLanes_busy {s : State} {vs : Bytes} {k : Nat} (hne : vs ≠ []) (hb : s.busy = true) (hcap : s.inCap ≤ 4080)
    (hk : k + vs.length ≤ s.inCap) : s.writeLanes (inWindow + k) vs = s.dropWrite := by
  induction vs generalizing s k with
  | nil => exact absurd rfl hne
  | cons v vs ih =>
    rw [List.length_cons] at hk
    rw [State.writeLanes, State.writeLane_busy v (State.inIndex_dataIn (by omega) hcap) hb, Nat.add_assoc]
    cases vs with
    | nil => rfl
    | cons v' vs => exact ih (s := s.dropWrite) (List.cons_ne_nil v' vs) hb hcap (by rw [State.dropWrite_inCap]; omega)

theorem State.writeLanes_ignored {s : State} (vs : Bytes) {off : Nat} (h : ∀ i < vs.length, s.inIndex (off + i) = none) :
    s.writeLanes off vs = s := by
  induction vs generalizing off with
  | nil => rfl
  | cons v vs ih =>
    have hlane : s.writeLane off v = s := by simp [State.writeLane, show s.inIndex off = none from h 0 (Nat.succ_pos _)]
    rw [State.writeLanes, hlane]
    refine ih fun i hi => ?_
    rw [Nat.add_assoc, Nat.add_comm 1 i]
    exact h (i + 1) (Nat.succ_lt_succ hi)

/-! ### The DATA_IN window (R47, R48) -/

/-- A legal access from a DATA_IN byte on stays within IN_CAP: IN_CAP is a whole number of words. -/
theorem WindowAccess.within {width k cap : Nat} {w : Word} (hw : WindowAccess width k) (hcap : inCapLegal cap = true) (hk : k < cap) :
    k + (writtenBytes width w).length ≤ cap := by
  obtain ⟨hmod, -, -⟩ := inCapLegal_iff.1 hcap
  obtain rfl | ⟨rfl, hal⟩ := hw
  · exact hk
  · show k + 4 ≤ cap
    omega

theorem WindowAccess.inWindow_add {width k : Nat} (hw : WindowAccess width k) : WindowAccess width (inWindow + k) :=
  hw.imp_right (And.imp_right fun hal => by unfold inWindow; omega)

theorem State.access_write_dataIn (s : State) {width k : Nat} (w : Word) (hw : WindowAccess width k) (hcap : inCapLegal s.inCap = true)
    (hk : k < s.inCap) :
    s.access ⟨.write, width, BitVec.ofNat 14 (0x1000 + k), w⟩ =
      (s.writeLanes (inWindow + k) (writtenBytes width w)).respond .okWrite := by
  have hle := inCapLegal_le hcap
  have hlow : inWindow ≤ inWindow + k := Nat.le_add_right _ _
  rw [← s.writeAccess_window w hlow]
  exact s.access_write_window w hw.inWindow_add hlow (show 0x1000 + k < 2 ^ 14 by omega)

theorem State.access_write_dataIn_idle {s : State} {width k : Nat} (w : Word) (hw : WindowAccess width k)
    (hcap : inCapLegal s.inCap = true) (hk : k < s.inCap) (hb : s.busy = false) :
    s.access ⟨.write, width, BitVec.ofNat 14 (0x1000 + k), w⟩ = (s.storeBytes k (writtenBytes width w)).respond .okWrite := by
  rw [s.access_write_dataIn w hw hcap hk, State.writeLanes_idle _ hb (inCapLegal_le hcap) (hw.within hcap hk)]

theorem State.access_write_dataIn_busy {s : State} {width k : Nat} (w : Word) (hw : WindowAccess width k)
    (hcap : inCapLegal s.inCap = true) (hk : k < s.inCap) (hb : s.busy = true) :
    s.access ⟨.write, width, BitVec.ofNat 14 (0x1000 + k), w⟩ = s.dropWrite.respond .okWrite := by
  rw [s.access_write_dataIn w hw hcap hk,
    State.writeLanes_busy (writtenBytes_ne_nil width w) hb (inCapLegal_le hcap) (hw.within hcap hk)]

theorem State.laneReads_dataIn {s : State} {k : Nat} {v : Byte} (hk : k < s.inCap) (hcap : s.inCap ≤ 4080) (hv : s.inByte k = some v) :
    s.LaneReads (inWindow + k) v := by
  intro draws
  rw [State.readLane_dataIn draws (State.inIndex_dataIn hk hcap), hv]

theorem State.access_read8_dataIn {s : State} {k : Nat} {v : Byte} (x : Word) (hv : s.inByte k = some v) (hcap : inCapLegal s.inCap = true)
    (hk : k < s.inCap) : s.access ⟨.read, 8, BitVec.ofNat 14 (0x1000 + k), x⟩ = s.respond (.okRead8 v) := by
  have hle := inCapLegal_le hcap
  exact s.access_read8_window x (Nat.le_add_right 0x1000 k) (by omega) (State.laneReads_dataIn hk hle hv)

theorem State.access_read32_dataIn {s : State} {k : Nat} {b : Nat → Byte} (x : Word) (hv : ∀ i < 4, s.inByte (k + i) = some (b i))
    (hcap : inCapLegal s.inCap = true) (hk : k < s.inCap) (hal : k % 4 = 0) :
    s.access ⟨.read, 32, BitVec.ofNat 14 (0x1000 + k), x⟩ = s.respond (.okRead32 (le32 (b 0) (b 1) (b 2) (b 3))) := by
  obtain ⟨hmod, -, hle⟩ := inCapLegal_iff.1 hcap
  refine s.access_read32_window x (Nat.le_add_right 0x1000 k) (by omega) (by omega) fun i hi => ?_
  rw [Nat.add_assoc]
  exact State.laneReads_dataIn (by omega) hle (hv i hi)

theorem State.inByte_storeBytes_bytesLE (s : State) (k : Nat) (w : Word) {i : Nat} (hi : i < 4) :
    (s.storeBytes k (bytesLE w)).inByte (k + i) = some (lane w i) := by
  rw [s.inByte_storeBytes_inside k (vs := bytesLE w) hi, bytesLE_getD w hi]

theorem State.access_write8_dataIn {s : State} {k : Nat} (b : Byte) (hcap : inCapLegal s.inCap = true) (hk : k < s.inCap)
    (hb : s.busy = false) :
    s.access ⟨.write, 8, BitVec.ofNat 14 (0x1000 + k), b.setWidth 32⟩ = (s.storeBytes k [b]).respond .okWrite := by
  rw [State.access_write_dataIn_idle _ (.inl rfl) hcap hk hb, writtenBytes, if_pos rfl, lane_setWidth]

/-- A byte written at the end of the bytes already stored extends them. -/
theorem State.access_write8_next {s : State} {k n : Nat} {vs : Bytes} (b : Byte) (hn : n = k + vs.length)
    (hcap : inCapLegal s.inCap = true) (hk : n < s.inCap) (hb : s.busy = false) :
    ((s.storeBytes k vs).respond .okWrite).access ⟨.write, 8, BitVec.ofNat 14 (0x1000 + n), b.setWidth 32⟩ =
      (s.storeBytes k (vs ++ [b])).respond .okWrite := by
  rw [State.access_write8_dataIn (s := (s.storeBytes k vs).respond .okWrite) b hcap hk hb, hn]
  simp only [State.storeBytes, State.respond, Memory.writeBytes_append]

/-- Four byte writes, lowest lane first, store the word. -/
theorem State.access_write8_four {s : State} {k : Nat} (w : Word) (hcap : inCapLegal s.inCap = true) (hk : k + 3 < s.inCap)
    (hb : s.busy = false) :
    (((s.access ⟨.write, 8, BitVec.ofNat 14 (0x1000 + k), (w.extractLsb' 0 8).setWidth 32⟩).access
      ⟨.write, 8, BitVec.ofNat 14 (0x1000 + (k + 1)), (w.extractLsb' 8 8).setWidth 32⟩).access
      ⟨.write, 8, BitVec.ofNat 14 (0x1000 + (k + 2)), (w.extractLsb' 16 8).setWidth 32⟩).access
      ⟨.write, 8, BitVec.ofNat 14 (0x1000 + (k + 3)), (w.extractLsb' 24 8).setWidth 32⟩ =
    (s.storeBytes k (bytesLE w)).respond .okWrite := by
  rw [State.access_write8_dataIn _ hcap (show k < s.inCap by omega) hb,
    State.access_write8_next (n := k + 1) (vs := [_]) _ rfl hcap (show k + 1 < s.inCap by omega) hb,
    State.access_write8_next (n := k + 2) (vs := [_] ++ [_]) _ rfl hcap (show k + 2 < s.inCap by omega) hb,
    State.access_write8_next (n := k + 3) (vs := [_] ++ [_] ++ [_]) _ rfl hcap hk hb]
  rfl

/-- Settles O46: both ways of writing the four bytes lead to one state, which a read of either width sees. -/
theorem mixedWidthsSeeOneArray : Obligations.MixedWidthsSeeOneArray := by
  intro s j w x hcap hb hj
  have hal : 4 * j % 4 = 0 := Nat.mul_mod_right 4 j
  have hcells : ∀ i < 4, ((s.storeBytes (4 * j) (bytesLE w)).respond .okWrite).inByte (4 * j + i) = some (lane w i) :=
    fun i hi => s.inByte_storeBytes_bytesLE (4 * j) w hi
  simp only [Nat.add_assoc]
  constructor
  · intro i hi
    rw [State.access_write_dataIn_idle w (.inr ⟨rfl, hal⟩) hcap (by omega) hb]
    exact congrArg State.resp (State.access_read8_dataIn x (hcells i hi) hcap (show 4 * j + i < s.inCap by omega))
  · rw [State.access_write8_four w hcap hj hb, State.access_read32_dataIn x hcells hcap (show 4 * j < s.inCap by omega) hal,
      le32_lanes, State.respond_resp]

/-- Settles O47: a write stores its bytes from index `k` on, and while BUSY drops them all. -/
theorem dataInWrites : Obligations.DataInWrites := by
  intro s k w hcap hk
  refine ⟨fun hb => ?_, fun hb hal => ?_, fun hb => ⟨?_, fun hal => ?_⟩⟩
  · rw [State.access_write_dataIn_idle w (.inl rfl) hcap hk hb]
    refine ⟨rfl, s.inByte_storeBytes_inside k (vs := [lane w 0]) (j := 0) Nat.one_pos, fun x hx => ?_⟩
    exact s.inByte_storeBytes_outside (vs := [lane w 0]) (by rw [List.length_singleton]; omega)
  · rw [State.access_write_dataIn_idle w (.inr ⟨rfl, hal⟩) hcap hk hb]
    refine ⟨rfl, fun i hi => ?_, fun x hx => s.inByte_storeBytes_outside (vs := bytesLE w) hx⟩
    exact s.inByte_storeBytes_bytesLE k w hi
  · exact State.access_write_dataIn_busy w (.inl rfl) hcap hk hb
  · exact State.access_write_dataIn_busy w (.inr ⟨rfl, hal⟩) hcap hk hb

/-! ### The DATA_OUT window (R50) -/

theorem State.outIndex_dataOut {s : State} {k : Nat} (hk : k < s.outCap) (hcap : s.outCap ≤ 0x1000) :
    s.outIndex (outWindow + k) = some k := by
  rw [State.outIndex, if_pos (by unfold outWindow; omega), Nat.add_sub_cancel_left]

theorem State.laneReads_dataOut {s : State} {k : Nat} (hk : k < s.outCap) (hcap : s.outCap ≤ 0x1000) :
    s.LaneReads (outWindow + k) (s.outByte k) := by
  intro draws
  simp only [State.readLane, State.inIndex_outside (.inr (.inr (Nat.le_add_right outWindow k))), State.outIndex_dataOut hk hcap]

theorem State.outCap_of_inCapLegal {s : State} (hcap : inCapLegal s.inCap = true) : s.outCap % 16 = 0 ∧ s.outCap ≤ 0x1000 := by
  obtain ⟨hmod, -, hle⟩ := inCapLegal_iff.1 hcap
  unfold State.outCap outCapOf
  omega

theorem State.Inv.outByte_busy {s : State} (hs : s.Inv) (hb : s.busy = true) (k : Nat) : s.outByte k = 0 := by
  obtain ⟨-, -, -, -, hout⟩ := hs.busy hb
  rw [State.outByte, hout]
  rfl

/-- Settles O49: every lane of a read below OUT_CAP is its byte of DATA_OUT, which acceptance has cleared while BUSY. -/
theorem dataOutReads : Obligations.DataOutReads := by
  intro s k x hs hk
  obtain ⟨hmod, hle⟩ := State.outCap_of_inCapLegal hs.capacity
  have hlow : inWindow ≤ outWindow + k := Nat.le_trans (by decide) (Nat.le_add_right outWindow k)
  have hhigh : 0x2000 + k < 2 ^ 14 := by omega
  refine ⟨?_, fun hal => ?_, fun hb => hs.outByte_busy hb k⟩
  · exact s.access_read8_window x hlow hhigh (State.laneReads_dataOut hk hle)
  · refine s.access_read32_window (b := fun i => s.outByte (k + i)) x hlow hhigh (show (0x2000 + k) % 4 = 0 by omega) fun i hi => ?_
    rw [Nat.add_assoc]
    exact State.laneReads_dataOut (by omega) hle

/-! ### Reserved offsets (R43) -/

/-- The offsets from the DATA_IN window on that hold no buffer byte. -/
def State.ReservedByte (s : State) (off : Nat) : Prop :=
  (0x1000 + s.inCap ≤ off ∧ off < 0x2000) ∨ (0x2000 + s.outCap ≤ off ∧ off < 0x3000) ∨ 0x3000 ≤ off

theorem State.ReservedByte.laneReads {s : State} {off : Nat} (h : s.ReservedByte off) : s.LaneReads off 0 := by
  unfold State.ReservedByte at h
  have hin : s.inIndex off = none := State.inIndex_outside (by unfold inWindow outWindow; omega)
  have hout : s.outIndex off = none := by rw [State.outIndex, if_neg (by unfold outWindow; omega)]
  intro draws
  simp only [State.readLane, hin, hout]

/-- Every window ends at a word boundary, so the lanes of a reserved word are reserved. -/
theorem State.ReservedByte.lane {s : State} {off i : Nat} (h : s.ReservedByte off) (hal : off % 4 = 0) (hi : i < 4) :
    s.ReservedByte (off + i) := by
  unfold State.ReservedByte at *
  omega

theorem State.readRegister_reserved (s : State) {off : Nat} (h : 0x0018 ≤ off) : s.readRegister off = 0 := by
  have hne : ∀ reg, reg < 0x0018 → off ≠ reg := by omega
  simp only [State.readRegister, hne offStatus (by decide), hne offError (by decide), hne offInLen (by decide),
    hne offOutLen (by decide), hne offCaps (by decide), if_false]

theorem State.readAccess_register (s : State) {off : Nat} (h : off < inWindow) :
    s.readAccess 32 off = s.respond (.okRead32 (s.readRegister off)) := by
  rw [State.readAccess, if_neg (by decide), if_pos h]

theorem State.writeAccess_register (s : State) {off : Nat} (w : Word) (h : off < inWindow) :
    s.writeAccess 32 off w = s.writeRegister off w := by
  rw [State.writeAccess, if_neg (by decide), if_pos h]

theorem State.writeRegister_ignored (s : State) {off : Nat} (w : Word) (hcmd : off ≠ offCmd) (hlen : off ≠ offInLen) :
    s.writeRegister off w = s := by
  rw [State.writeRegister, if_neg hcmd, if_neg hlen]

/-- A legal write that is not to CMD, IN_LEN or a DATA_IN byte has no effect. -/
theorem State.writeAccess_ignored (s : State) {a : Access} (hlegal : a.legal = true)
    (h : a.off.toNat < inWindow ∧ a.off.toNat ≠ offCmd ∧ a.off.toNat ≠ offInLen ∨ inWindow + s.inCap ≤ a.off.toNat) :
    s.writeAccess a.width a.off.toNat a.wdata = s := by
  obtain ⟨hreg, hcmd, hlen⟩ | hpast := h
  · have hw : a.width = 32 := by
      obtain ⟨-, hlow⟩ | ⟨hw, -⟩ := Access.legal_iff.1 hlegal
      · exact absurd hreg (Nat.not_lt.2 hlow)
      · exact hw
    rw [hw, s.writeAccess_register a.wdata hreg, s.writeRegister_ignored a.wdata hcmd hlen]
  · rw [s.writeAccess_window a.wdata (Nat.le_trans (Nat.le_add_right _ _) hpast)]
    exact State.writeLanes_ignored _ fun i _ => State.inIndex_outside (.inr (.inl (Nat.le_add_right_of_le hpast)))

/-- Settles O53: reserved offsets read as zeros, and no write outside CMD, IN_LEN and the DATA_IN bytes reaches anything. -/
theorem reservedOffsets : Obligations.ReservedOffsets := by
  intro s a hcap hlegal hole
  have hle := inCapLegal_le hcap
  refine ⟨fun hdir hhole => ?_, fun hdir htarget => ?_⟩
  · rw [s.access_read hlegal hdir]
    obtain ⟨hw, hlow⟩ | ⟨hw, hal⟩ := Access.legal_iff.1 hlegal
    · have hres : s.ReservedByte a.off.toNat := hhole.resolve_left fun hreg => absurd hreg.2 (Nat.not_lt.2 hlow)
      rw [hw, State.readAccess_byte hres.laneReads]
      rfl
    · rw [hw]
      obtain ⟨hreg, hlow⟩ | hres := hhole
      · rw [s.readAccess_register hlow, s.readRegister_reserved hreg]
        rfl
      · have hlow : inWindow ≤ a.off.toNat := by unfold inWindow; omega
        exact State.readAccess_word (b := fun _ => 0) hlow fun i hi => (State.ReservedByte.lane hres hal hi).laneReads
  · rw [s.access_write hlegal hdir, s.writeAccess_ignored hlegal]
    · rfl
    · unfold inWindow offCmd offInLen
      simp only [BitVec.toNat_eq, BitVec.reduceToNat] at htarget
      omega

end Sys2Proof.Machine

/-! The decoder and the encoder (30_encoding.md) on the words the spec names. -/

namespace Sys2Proof

/-- Settles O4: both functions compute on a fixed word, so the words of R66, R67 and 95_test_vectors.md section 7 are evaluated. -/
theorem specWordsDecode : Obligations.SpecWordsDecode := by
  unfold Obligations.SpecWordsDecode
  refine ⟨?configWords, ?plainAndIllegalWords⟩
  case configWords => decide
  case plainAndIllegalWords => decide

end Sys2Proof

/-! Acceptance of a command word (40_command_execution.md R73) and writes while BUSY (R74). -/

namespace Sys2Proof.Machine

/-! ### Acceptance -/

theorem State.access_cmd_idle {s : State} (w : Word) (hb : s.busy = false) :
    s.access ⟨.write, 32, 0x0000, w⟩ = (s.accept w).respond .okWrite := by
  have hcmd : s.writeRegister offCmd w = s.accept w := by simp [State.writeRegister, hb]
  rw [s.access_write (Access.legal_iff.2 (.inr ⟨rfl, rfl⟩)) rfl, ← hcmd]
  rfl

/-- Settles O43: an idle core answers the write by `State.accept`, which writes the listed components and no other. -/
theorem acceptanceEffects : Obligations.AcceptanceEffects := by
  intro s w hb
  rw [State.access_cmd_idle w hb]
  have hengine : EngineUnchanged s ((s.accept w).respond .okWrite) := ⟨rfl, rfl, rfl, rfl, rfl⟩
  have hinputs : InputsUnchanged s ((s.accept w).respond .okWrite) := ⟨rfl, fun _ => rfl⟩
  exact ⟨rfl, rfl, rfl, rfl, rfl, rfl, rfl, fun _ => rfl, rfl, rfl, hengine, hinputs, rfl, rfl, rfl, rfl⟩

/-! ### Writes while BUSY -/

/-- The writes that the core drops while it is BUSY: to CMD, to IN_LEN or to a DATA_IN byte below IN_CAP. -/
def State.DropsWrite (s : State) (a : Access) : Prop :=
  (a.width = 32 ∧ (a.off.toNat = offCmd ∨ a.off.toNat = offInLen)) ∨ (inWindow ≤ a.off.toNat ∧ a.off.toNat < inWindow + s.inCap)

theorem State.writeRegister_busy {s : State} {off : Nat} (w : Word) (hb : s.busy = true) (h : off = offCmd ∨ off = offInLen) :
    s.writeRegister off w = s.dropWrite := by
  obtain rfl | rfl := h <;> simp [State.writeRegister, hb]

/-- Legality at a window's offset does not depend on the window's base, which is aligned. -/
theorem Access.windowAccess_of_legal {a : Access} {k : Nat} (h : a.legal = true) (hk : a.off.toNat = inWindow + k) :
    WindowAccess a.width k := by
  refine (Access.legal_iff.1 h).imp And.left (And.imp_right fun hal => ?_)
  unfold inWindow at hk
  omega

theorem State.writeAccess_busy_dropped {s : State} {a : Access} (hcap : inCapLegal s.inCap = true) (hb : s.busy = true)
    (hlegal : a.legal = true) (h : s.DropsWrite a) : s.writeAccess a.width a.off.toNat a.wdata = s.dropWrite := by
  obtain ⟨hw, hreg⟩ | ⟨hlow, hhigh⟩ := h
  · have hoff : a.off.toNat < inWindow := by
      unfold offCmd offInLen at hreg
      unfold inWindow
      omega
    rw [hw, s.writeAccess_register a.wdata hoff, State.writeRegister_busy a.wdata hb hreg]
  · obtain ⟨k, hk⟩ := Nat.exists_eq_add_of_le hlow
    have hkcap : k < s.inCap := by omega
    have hwithin := (Access.windowAccess_of_legal hlegal hk).within (w := a.wdata) hcap hkcap
    rw [s.writeAccess_window a.wdata hlow, hk,
      State.writeLanes_busy (writtenBytes_ne_nil a.width a.wdata) hb (inCapLegal_le hcap) hwithin]

theorem State.writeAccess_not_dropped {s : State} {a : Access} (hlegal : a.legal = true) (h : ¬ s.DropsWrite a) :
    s.writeAccess a.width a.off.toNat a.wdata = s := by
  refine s.writeAccess_ignored hlegal ?_
  unfold State.DropsWrite at h
  have hwidth := Access.legal_iff.1 hlegal
  omega

/-- The dropped writes, with CMD's and IN_LEN's offsets as the 14-bit words of an access. -/
theorem State.dropsWrite_iff {s : State} {a : Access} :
    s.DropsWrite a ↔
      (a.width = 32 ∧ (a.off = 0x0000 ∨ a.off = 0x000C)) ∨ (0x1000 ≤ a.off.toNat ∧ a.off.toNat < 0x1000 + s.inCap) := by
  simp only [BitVec.toNat_eq]
  rfl

theorem State.Inv.done_busy {s : State} (hs : s.Inv) (hb : s.busy = true) : s.done = false := by
  obtain ⟨hexcl, -⟩ := hs.status
  exact Bool.eq_false_iff.2 fun hd => hexcl ⟨hb, hd⟩

theorem State.errorWord_eq_zero {s : State} (hcode : s.errCode = 0) (hdetail : s.errDetail = 0) : s.errorWord = 0 := by
  rw [State.errorWord, hcode, hdetail]
  rfl

/-- Settles O44: a legal write reaches a register or a DATA_IN lane that drops it, or has no effect at all; the rest is the invariant's
clause about BUSY. -/
theorem busyWritesDropped : Obligations.BusyWritesDropped := by
  intro s hs hb
  obtain ⟨hcode, hdetail, -, hlen, -⟩ := hs.busy hb
  refine ⟨fun a hlegal hdir => ?_, hs.done_busy hb, State.errorWord_eq_zero hcode hdetail, hlen, hs.outByte_busy hb⟩
  rw [s.access_write hlegal hdir]
  by_cases hdrop : s.DropsWrite a
  · rw [State.writeAccess_busy_dropped hs.capacity hb hlegal hdrop, if_pos (State.dropsWrite_iff.1 hdrop)]
    rfl
  · rw [State.writeAccess_not_dropped hlegal hdrop, if_neg (mt State.dropsWrite_iff.2 hdrop)]
    rfl

end Sys2Proof.Machine

/-! The block transform (42_block_transform.md) and its inverse: the round keys in reverse order undo the rounds. -/

namespace Sys2Proof.Machine

/-- The four words in reverse order, as `Rounds` puts them out (R93). -/
def Quad.reverse (x : Quad) : Quad := ⟨x.d, x.c, x.b, x.a⟩

theorem splitBlock_joinReversed (x : Quad) : splitBlock (joinReversed x) = x.reverse :=
  congr (congr (congr (congrArg Quad.mk (be32_lanes x.d)) (be32_lanes x.c)) (be32_lanes x.b)) (be32_lanes x.a)

theorem joinReversed_reverse_splitBlock : ∀ {b : Bytes}, b.length = 16 → joinReversed (splitBlock b).reverse = b
  | [_, _, _, _, _, _, _, _, _, _, _, _, _, _, _, _], _ => by
    simp [joinReversed, Quad.reverse, splitBlock, wordAt, bytesBE_be32, byteAt]

/-- On the reversed words a round has the same argument of `T`, so a second XOR with it takes the first one away. -/
theorem roundStep_reverse_roundStep (x : Quad) (k : Word) : roundStep (roundStep x k).reverse k = x.reverse := by
  have hxor : x.d ^^^ x.c ^^^ x.b = x.b ^^^ x.c ^^^ x.d := by ac_rfl
  simp only [roundStep, Quad.reverse, hxor, BitVec.xor_assoc, BitVec.xor_self, BitVec.xor_zero]

/-- The last round is undone first, the first round last (R95, R96). -/
theorem foldl_roundStep_reverse (ks : List Word) (x : Quad) :
    ks.reverse.foldl roundStep (ks.foldl roundStep x).reverse = x.reverse := by
  induction ks generalizing x with
  | nil => rfl
  | cons k ks ih =>
    simp only [List.reverse_cons, List.foldl_append, List.foldl_cons, List.foldl_nil, ih, roundStep_reverse_roundStep]

theorem rounds_reverse_rounds (ks : List Word) {b : Bytes} (h : b.length = 16) : rounds ks.reverse (rounds ks b) = b := by
  have hundo : ks.reverse.foldl roundStep (splitBlock (rounds ks b)) = (splitBlock b).reverse := by
    rw [rounds, splitBlock_joinReversed, foldl_roundStep_reverse]
  rw [rounds, hundo, joinReversed_reverse_splitBlock h]

/-- Settles O32: each direction is `Rounds` after `Rounds` under the reversed round keys, and reversal is its own inverse. -/
theorem blockRoundTrip : Obligations.BlockRoundTrip := by
  intro rk b hb
  refine ⟨rounds_reverse_rounds rk hb, ?_⟩
  have h := rounds_reverse_rounds rk.reverse hb
  rwa [List.reverse_reverse] at h

end Sys2Proof.Machine

/-! The padding engine (43_padding.md): what Unpad accepts are the sequences Pad makes. -/

namespace Sys2Proof.Machine

theorem badBlockLength_eq_false_iff {len : Nat} : badBlockLength len = false ↔ len ≠ 0 ∧ len % 16 = 0 := by simp [badBlockLength]

theorem byteAt_append_rep_last (p : Bytes) {n : Nat} (v : Byte) (hn : 1 ≤ n) : byteAt (p ++ rep n v) (p.length + n - 1) = v := by
  rw [byteAt, List.getD_append_right _ _ _ _ (by omega), rep, List.getD_replicate _ (by omega)]

/-- Every check of Unpad passes on 1 to 16 pad bytes that fill up a block, and the truncation takes off just these (R100). -/
theorem unpad_append_rep {p : Bytes} {n : Byte} (hpos : 1 ≤ n.toNat) (hle : n.toNat ≤ 16) (hmod : (p.length + n.toNat) % 16 = 0) :
    unpad (p ++ rep n.toNat n) = .ok p := by
  have hlen : (p ++ rep n.toNat n).length = p.length + n.toNat := by simp
  have hblock : badBlockLength (p.length + n.toNat) = false := badBlockLength_eq_false_iff.2 ⟨by omega, hmod⟩
  have hvalue : ¬ (n = 0 ∨ n.toNat > 16) := by
    rintro (rfl | hgt)
    · exact absurd hpos (by decide)
    · omega
  have hbytes : (rep n.toNat n).all (fun b => b = n) = true := by simp [rep]
  simp only [unpad, hlen, hblock, byteAt_append_rep_last p n hpos, Nat.add_sub_cancel, List.drop_left, List.take_left]
  rw [if_neg Bool.false_ne_true, if_neg hvalue, if_pos hbytes]

/-- What Unpad's checks, all passed, say of its argument (R100). -/
theorem exists_append_rep_of_unpad {q p : Bytes} (h : unpad q = .ok p) :
    ∃ n : Byte, 1 ≤ n.toNat ∧ n.toNat ≤ 16 ∧ (p.length + n.toNat) % 16 = 0 ∧ p ++ rep n.toNat n = q := by
  simp only [unpad] at h
  split_ifs at h with hblock hvalue hbytes
  cases h
  obtain ⟨hne, hmod⟩ := badBlockLength_eq_false_iff.1 (eq_false_of_ne_true hblock)
  obtain ⟨hzero, hle⟩ := not_or.1 hvalue
  generalize byteAt q (q.length - 1) = n at hzero hle hbytes ⊢
  have hpos : n.toNat ≠ 0 := fun h0 => hzero (BitVec.eq_of_toNat_eq h0)
  have htail : q.drop (q.length - n.toNat) = rep n.toNat n := List.eq_replicate_iff.2 ⟨by simp; omega, by simpa using hbytes⟩
  refine ⟨n, by omega, by omega, by simp; omega, ?_⟩
  rw [← htail, List.take_append_drop]

/-- Pad appends the only number of bytes from 1 to 16 that fills up a block (R99). -/
theorem padCount_eq {len n : Nat} (hpos : 1 ≤ n) (hle : n ≤ 16) (hmod : (len + n) % 16 = 0) : padCount len = n := by
  unfold padCount
  omega

theorem unpad_pad (p : Bytes) : unpad (pad p) = .ok p := by
  obtain ⟨hpos, hle⟩ := padCount_range p.length
  have hbyte : (BitVec.ofNat 8 (padCount p.length)).toNat = padCount p.length := by
    rw [BitVec.toNat_ofNat, Nat.mod_eq_of_lt (by omega)]
  have h := unpad_append_rep (p := p) (n := BitVec.ofNat 8 (padCount p.length))
  rw [hbyte] at h
  exact h hpos hle (pad_length p ▸ pad_length_mod p)

theorem pad_of_unpad {q p : Bytes} (h : unpad q = .ok p) : pad p = q := by
  obtain ⟨n, hpos, hle, hmod, rfl⟩ := exists_append_rep_of_unpad h
  rw [pad, padCount_eq hpos hle hmod, BitVec.ofNat_toNat, BitVec.setWidth_eq]

/-- Settles O33: Pad's bytes pass every check of Unpad, and the pad bytes Unpad takes off are those Pad appends. -/
theorem padUnpadInverse : Obligations.PadUnpadInverse :=
  ⟨unpad_pad, fun _ _ => pad_of_unpad⟩

end Sys2Proof.Machine

/-! The mode drivers (44_mode_drivers.md). The loops of CBC, CFB and OFB differ in what they put out for a piece and in what they feed back:
`runLoop` has both as parameters, so that one argument gives the recurrences of R109 to R113. Each driver's lengths and inverse follow from
its recurrence. -/

namespace Sys2Proof.Machine

/-! ### Sequences given by their bytes or by their blocks -/

theorem byteAt_ext {a b : Bytes} (hlen : a.length = b.length) (h : ∀ k < a.length, byteAt a k = byteAt b k) : a = b := by
  refine List.ext_getElem hlen fun k ha hb => ?_
  have hk := h k ha
  rwa [byteAt, byteAt, List.getD_eq_getElem _ _ ha, List.getD_eq_getElem _ _ hb] at hk

theorem pieceAt_ext {a b : Bytes} (hlen : a.length = b.length) (hmod : a.length % 16 = 0)
    (h : ∀ i < a.length / 16, pieceAt a i = pieceAt b i) : a = b := by
  refine byteAt_ext hlen fun k hk => ?_
  rw [← byteAt_pieceAt a, ← byteAt_pieceAt b, h (k / 16) (by omega)]

theorem pieceAt_zero (q : Bytes) : pieceAt q 0 = q.take 16 := rfl

theorem pieceAt_drop (q : Bytes) (i : Nat) : pieceAt (q.drop 16) i = pieceAt q (i + 1) := by
  rw [pieceAt, pieceAt, List.drop_drop, Nat.add_comm 16, ← Nat.mul_succ]

theorem pieceAt_length_of_block {q : Bytes} {i : Nat} (h : i < q.length / 16) : (pieceAt q i).length = 16 := by
  rw [pieceAt_length]
  omega

theorem byte_xor_xor_cancel (a s : Byte) : a ^^^ s ^^^ s = a := by
  rw [BitVec.xor_assoc, BitVec.xor_self, BitVec.xor_zero]

/-- XOR with a sequence that is long enough undoes itself. -/
theorem xorBytes_xorBytes_cancel {a b : Bytes} (h : a.length ≤ b.length) : xorBytes (xorBytes a b) b = a := by
  have hlen : (xorBytes a b).length = a.length := by rw [xorBytes_length, Nat.min_eq_left h]
  refine byteAt_ext (by rw [xorBytes_length, hlen, Nat.min_eq_left h]) fun k hk => ?_
  have hk : k < a.length := by simp only [xorBytes_length] at hk; omega
  rw [byteAt_xorBytes (hlen.symm ▸ hk) (by omega), byteAt_xorBytes hk (by omega), byte_xor_xor_cancel]

@[simp] theorem xorKeystream_length (x s : Bytes) : (xorKeystream x s).length = min x.length s.length := by simp [xorKeystream]

theorem pad_length_eq (p : Bytes) : (pad p).length = 16 * (p.length / 16 + 1) := by
  rw [pad_length, padCount]
  omega

theorem blockDecrypt_blockEncrypt (rk : List Word) {b : Bytes} (h : b.length = 16) : blockDecrypt rk (blockEncrypt rk b) = b :=
  (blockRoundTrip rk b h).1

/-! ### Blocks transformed one by one (R106, R107) -/

section Blocks
variable {f : Bytes → Bytes} (hf : ∀ b, (f b).length = 16) (q : Bytes)
include hf

theorem map_blocks_length : ∀ b ∈ (blocks q).map f, b.length = 16 := fun b hb => by
  obtain ⟨a, -, rfl⟩ := List.mem_map.1 hb
  exact hf a

theorem length_map_blocks (hmod : q.length % 16 = 0) : ((blocks q).map f).flatten.length = q.length := by
  rw [flatten_blocks_length _ (map_blocks_length hf q), List.length_map, blocks, pieces_length]
  omega

theorem pieceAt_map_blocks {i : Nat} (hi : i < q.length / 16) : pieceAt ((blocks q).map f).flatten i = f (pieceAt q i) := by
  rw [pieceAt_flatten _ (map_blocks_length hf q) i (by simpa [blocks] using hi), List.getElem_map]
  exact congrArg f (pieces_getElem _ q _)

end Blocks

/-! ### A loop with feedback -/

section Loop
variable (out next : Bytes → Bytes → Bytes)

/-- The loop over the first `m` pieces of `q`: piece `x` under the feedback `fb` gives `out fb x`, and the next feedback is `next fb x`. -/
def runLoop : Bytes → Nat → Bytes → Bytes
  | _, 0, _ => []
  | fb, m + 1, q => out fb (q.take 16) ++ runLoop (next fb (q.take 16)) m (q.drop 16)

/-- The feedback with which the loop comes to piece `i`. -/
def feedback (fb q : Bytes) : Nat → Bytes
  | 0 => fb
  | i + 1 => next (feedback fb q i) (pieceAt q i)

/-- The loop puts out as many bytes for a piece as the piece has. -/
def KeepsLengths (fb : Bytes) (m : Nat) (q : Bytes) : Prop :=
  ∀ i < m, (out (feedback next fb q i) (pieceAt q i)).length = (pieceAt q i).length

/-- The loop's feedback after its first piece, seen from the rest of the sequence. -/
theorem feedback_drop (fb q : Bytes) (i : Nat) :
    feedback next (next fb (q.take 16)) (q.drop 16) i = feedback next fb q (i + 1) := by
  induction i with
  | zero => rfl
  | succ i ih => rw [feedback, ih, pieceAt_drop]; rfl

variable {out next} {fb q : Bytes} {m : Nat}

theorem KeepsLengths.head (h : KeepsLengths out next fb (m + 1) q) : (out fb (q.take 16)).length = min 16 q.length := by
  simpa [feedback, pieceAt_zero] using h 0 m.succ_pos

theorem KeepsLengths.tail (h : KeepsLengths out next fb (m + 1) q) : KeepsLengths out next (next fb (q.take 16)) m (q.drop 16) :=
  fun i hi => by
    rw [feedback_drop, pieceAt_drop]
    exact h (i + 1) (Nat.succ_lt_succ hi)

theorem length_runLoop (h : KeepsLengths out next fb m q) : (runLoop out next fb m q).length = min (16 * m) q.length := by
  induction m generalizing fb q with
  | zero => simp [runLoop]
  | succ m ih =>
    rw [runLoop, List.length_append, h.head, ih h.tail, List.length_drop]
    omega

/-- The pieces of a piece put in front of a sequence, where only the last piece is short. -/
theorem pieceAt_append_of_le {b rest : Bytes} (hle : b.length ≤ 16) (h : b.length = 16 ∨ rest = []) (i : Nat) :
    pieceAt (b ++ rest) i = match i with | 0 => b | j + 1 => pieceAt rest j := by
  obtain h16 | rfl := h
  · exact pieceAt_append rest h16 i
  · cases i with
    | zero => simp [pieceAt, hle]
    | succ j =>
      have hb : b.length ≤ 16 * (j + 1) := by omega
      simp [pieceAt, hb]

/-- Piece `i` of the output is what the loop puts out for piece `i` of its input. -/
theorem pieceAt_runLoop (h : KeepsLengths out next fb m q) {i : Nat} (hi : i < m) :
    pieceAt (runLoop out next fb m q) i = out (feedback next fb q i) (pieceAt q i) := by
  induction m generalizing fb q i with
  | zero => exact absurd hi i.not_lt_zero
  | succ m ih =>
    have hrest : (out fb (q.take 16)).length = 16 ∨ runLoop out next (next fb (q.take 16)) m (q.drop 16) = [] := by
      rw [h.head, ← List.length_eq_zero_iff, length_runLoop h.tail, List.length_drop]
      omega
    rw [runLoop, pieceAt_append_of_le (h.head ▸ Nat.min_le_left _ _) hrest]
    cases i with
    | zero => rfl
    | succ i => exact (ih h.tail (Nat.lt_of_succ_lt_succ hi)).trans (by rw [feedback_drop, pieceAt_drop])

/-- A loop that feeds back its output is at piece `i` under the output's piece before, at first under the IV. -/
theorem feedback_output (h : KeepsLengths out out fb m q) {i : Nat} (hi : i < m) :
    feedback out fb q i = previousBlock fb (runLoop out out fb m q) i := by
  cases i with
  | zero => rfl
  | succ i => exact (pieceAt_runLoop h (Nat.lt_of_succ_lt hi)).symm

/-- A loop that feeds back its input is at piece `i` under the input's piece before, at first under the IV. -/
theorem feedback_input (fb q : Bytes) (i : Nat) : feedback (fun _ x => x) fb q i = previousBlock fb q i := by
  cases i <;> rfl

end Loop

/-! ### ECB (R106, R107, R108) -/

theorem ecbEncrypt_length (rk : List Word) (p : Bytes) : (ecbEncrypt rk p).length = (pad p).length :=
  length_map_blocks (blockEncrypt_length rk) _ (pad_length_mod p)

theorem pieceAt_ecbEncrypt (rk : List Word) (p : Bytes) {i : Nat} (hi : i < (pad p).length / 16) :
    pieceAt (ecbEncrypt rk p) i = blockEncrypt rk (pieceAt (pad p) i) :=
  pieceAt_map_blocks (blockEncrypt_length rk) _ hi

/-- A whole block of the message is encrypted as itself. -/
theorem pieceAt_ecbEncrypt_of_block (rk : List Word) {p : Bytes} {i : Nat} (hi : 16 * (i + 1) ≤ p.length) :
    pieceAt (ecbEncrypt rk p) i = blockEncrypt rk (pieceAt p i) := by
  rw [pieceAt_ecbEncrypt rk p (by rw [pad_length]; omega), pieceAt_pad hi]

theorem badBlockLength_eq_true_iff {len : Nat} : badBlockLength len = true ↔ len = 0 ∨ len % 16 ≠ 0 := by simp [badBlockLength]

theorem ecbDecrypt_badLength (rk : List Word) {c : Bytes} (h : c.length = 0 ∨ c.length % 16 ≠ 0) :
    ecbDecrypt rk c = .error paddingLength :=
  if_pos (badBlockLength_eq_true_iff.2 h)

/-- Decryption of whole blocks unpads the sequence of the blocks `D(C_i)` (R107). -/
theorem ecbDecrypt_blocks (rk : List Word) {c : Bytes} (hne : c.length ≠ 0) (hmod : c.length % 16 = 0) :
    ∃ q : Bytes, q.length = c.length ∧ (∀ i < c.length / 16, pieceAt q i = blockDecrypt rk (pieceAt c i)) ∧
      ecbDecrypt rk c = unpad q := by
  refine ⟨((blocks c).map (blockDecrypt rk)).flatten, length_map_blocks (blockDecrypt_length rk) c hmod,
    fun i => pieceAt_map_blocks (blockDecrypt_length rk) c, ?_⟩
  rw [ecbDecrypt, badBlockLength_eq_false_iff.2 ⟨hne, hmod⟩, if_neg Bool.false_ne_true]

/-- Settles O37: every block of the output is the transform of the input's block alone. -/
theorem ecbRepeatsBlocks : Obligations.EcbRepeatsBlocks := by
  refine ⟨fun rk _ p => ⟨ecbEncrypt_length rk p, fun i => pieceAt_ecbEncrypt rk p⟩, ?equalBlocks,
    fun rk _ c => ⟨ecbDecrypt_badLength rk, ecbDecrypt_blocks rk⟩, fun _ _ _ _ _ => ⟨rfl, rfl⟩⟩
  case equalBlocks =>
    intro rk iv p p' i j hi hj heq
    exact (pieceAt_ecbEncrypt_of_block rk hi).trans (heq ▸ (pieceAt_ecbEncrypt_of_block rk hj).symm)

/-! ### CBC (R109, R110) -/

/-- `E(Q ⊕ F)`, the ciphertext block of `Q` after the ciphertext block `F`. -/
def cbcOut (rk : List Word) (fb q : Bytes) : Bytes := blockEncrypt rk (xorBytes q fb)

/-- `D(C) ⊕ F`, the block that `C` after the ciphertext block `F` decrypts to. -/
def cbcBack (rk : List Word) (fb c : Bytes) : Bytes := xorBytes (blockDecrypt rk c) fb

theorem cbcEncryptBlocks_pieces (rk : List Word) (fb : Bytes) (m : Nat) (q : Bytes) :
    cbcEncryptBlocks rk fb (pieces m q) = runLoop (cbcOut rk) (cbcOut rk) fb m q := by
  induction m generalizing fb q with
  | zero => rfl
  | succ m ih => rw [pieces, cbcEncryptBlocks, ih]; rfl

theorem cbcDecryptBlocks_pieces (rk : List Word) (fb : Bytes) (m : Nat) (q : Bytes) :
    cbcDecryptBlocks rk fb (pieces m q) = runLoop (cbcBack rk) (fun _ x => x) fb m q := by
  induction m generalizing fb q with
  | zero => rfl
  | succ m ih => rw [pieces, cbcDecryptBlocks, ih]; rfl

theorem cbcEncrypt_eq (rk : List Word) (iv p : Bytes) :
    cbcEncrypt rk iv p = runLoop (cbcOut rk) (cbcOut rk) iv ((pad p).length / 16) (pad p) :=
  cbcEncryptBlocks_pieces rk iv _ _

theorem cbcOut_keepsLengths (rk : List Word) (fb q : Bytes) : KeepsLengths (cbcOut rk) (cbcOut rk) fb (q.length / 16) q :=
  fun _ hi => (blockEncrypt_length _ _).trans (pieceAt_length_of_block hi).symm

theorem previousBlock_length {iv c : Bytes} (hiv : iv.length = 16) {i : Nat} (hi : i < c.length / 16) :
    (previousBlock iv c i).length = 16 := by
  cases i with
  | zero => exact hiv
  | succ i => exact pieceAt_length_of_block (Nat.lt_of_succ_lt hi)

theorem cbcBack_keepsLengths (rk : List Word) {iv : Bytes} (hiv : iv.length = 16) (c : Bytes) :
    KeepsLengths (cbcBack rk) (fun _ x => x) iv (c.length / 16) c := fun i hi => by
  rw [feedback_input, cbcBack, xorBytes_length, blockDecrypt_length, previousBlock_length hiv hi, pieceAt_length_of_block hi,
    Nat.min_self]

theorem cbcEncrypt_length (rk : List Word) (iv p : Bytes) : (cbcEncrypt rk iv p).length = (pad p).length := by
  have hmod := pad_length_mod p
  rw [cbcEncrypt_eq, length_runLoop (cbcOut_keepsLengths rk iv _)]
  omega

theorem pieceAt_cbcEncrypt (rk : List Word) (iv p : Bytes) {i : Nat} (hi : i < (pad p).length / 16) :
    pieceAt (cbcEncrypt rk iv p) i = blockEncrypt rk (xorBytes (pieceAt (pad p) i) (previousBlock iv (cbcEncrypt rk iv p) i)) := by
  have hkeeps := cbcOut_keepsLengths rk iv (pad p)
  rw [cbcEncrypt_eq, pieceAt_runLoop hkeeps hi, feedback_output hkeeps hi, cbcOut]

theorem cbcDecrypt_badLength (rk : List Word) (iv : Bytes) {c : Bytes} (h : c.length = 0 ∨ c.length % 16 ≠ 0) :
    cbcDecrypt rk iv c = .error paddingLength :=
  if_pos (badBlockLength_eq_true_iff.2 h)

/-- Decryption of whole blocks unpads the sequence of the blocks `D(C_i) ⊕ C_{i−1}` (R110). -/
theorem cbcDecrypt_blocks (rk : List Word) {iv c : Bytes} (hiv : iv.length = 16) (hne : c.length ≠ 0) (hmod : c.length % 16 = 0) :
    ∃ q : Bytes, q.length = c.length ∧
      (∀ i < c.length / 16, pieceAt q i = xorBytes (blockDecrypt rk (pieceAt c i)) (previousBlock iv c i)) ∧
      cbcDecrypt rk iv c = unpad q := by
  have hkeeps := cbcBack_keepsLengths rk hiv c
  refine ⟨runLoop (cbcBack rk) (fun _ x => x) iv (c.length / 16) c, ?_, fun i hi => ?_, ?_⟩
  · rw [length_runLoop hkeeps]
    omega
  · rw [pieceAt_runLoop hkeeps hi, feedback_input, cbcBack]
  · rw [cbcDecrypt, badBlockLength_eq_false_iff.2 ⟨hne, hmod⟩, if_neg Bool.false_ne_true, blocks, cbcDecryptBlocks_pieces]

/-- Settles O38: the encrypting loop feeds back its output, the decrypting loop its input, which are both the ciphertext. -/
theorem cbcChainsBlocks : Obligations.CbcChainsBlocks :=
  ⟨fun rk iv p => ⟨cbcEncrypt_length rk iv p, fun _ => pieceAt_cbcEncrypt rk iv p⟩,
    fun rk iv _ hiv => ⟨cbcDecrypt_badLength rk iv, cbcDecrypt_blocks rk hiv⟩⟩

/-! ### Keystreams (R111, R112, R113) -/

/-- A piece under the keystream block `E(F)`, `F` the feedback. -/
def keystreamOut (rk : List Word) (fb x : Bytes) : Bytes := xorKeystream x (blockEncrypt rk fb)

section Keystream
variable {rk : List Word} {next : Bytes → Bytes → Bytes}

theorem keystreamOut_keepsLengths (fb : Bytes) (m : Nat) (q : Bytes) : KeepsLengths (keystreamOut rk) next fb m q := fun i _ => by
  rw [keystreamOut, xorKeystream_length, blockEncrypt_length, pieceAt_length]
  omega

/-- The loop over the chunks of a message, which may end in a short one (R105). -/
def keystreamLoop (rk : List Word) (next : Bytes → Bytes → Bytes) (fb x : Bytes) : Bytes :=
  runLoop (keystreamOut rk) next fb ((x.length + 15) / 16) x

theorem keystreamLoop_length (fb x : Bytes) : (keystreamLoop rk next fb x).length = x.length := by
  rw [keystreamLoop, length_runLoop (keystreamOut_keepsLengths fb _ x)]
  omega

/-- Byte `k` of the output is byte `k` of the input under byte `k mod 16` of the keystream block of chunk `k / 16`. -/
theorem byteAt_keystreamLoop (fb : Bytes) {x : Bytes} {k : Nat} (hk : k < x.length) :
    byteAt (keystreamLoop rk next fb x) k = byteAt x k ^^^ byteAt (blockEncrypt rk (feedback next fb x (k / 16))) (k % 16) := by
  have hchunk : k / 16 < (x.length + 15) / 16 := by omega
  have hx : k % 16 < (pieceAt x (k / 16)).length := by rw [pieceAt_length]; omega
  have hs : k % 16 < (blockEncrypt rk (feedback next fb x (k / 16))).length := by rw [blockEncrypt_length]; omega
  rw [← byteAt_pieceAt, keystreamLoop, pieceAt_runLoop (keystreamOut_keepsLengths fb _ x) hchunk, keystreamOut,
    byteAt_xorKeystream hx hs, byteAt_pieceAt]

end Keystream

/-! ### CFB (R111, R112) -/

theorem cfbEncryptChunks_pieces (rk : List Word) (fb : Bytes) (m : Nat) (p : Bytes) :
    cfbEncryptChunks rk fb (pieces m p) = runLoop (keystreamOut rk) (keystreamOut rk) fb m p := by
  induction m generalizing fb p with
  | zero => rfl
  | succ m ih => rw [pieces, cfbEncryptChunks, ih]; rfl

theorem cfbDecryptChunks_pieces (rk : List Word) (fb : Bytes) (m : Nat) (c : Bytes) :
    cfbDecryptChunks rk fb (pieces m c) = runLoop (keystreamOut rk) (fun _ x => x) fb m c := by
  induction m generalizing fb c with
  | zero => rfl
  | succ m ih => rw [pieces, cfbDecryptChunks, ih]; rfl

theorem cfbEncrypt_eq (rk : List Word) (iv p : Bytes) : cfbEncrypt rk iv p = keystreamLoop rk (keystreamOut rk) iv p :=
  cfbEncryptChunks_pieces rk iv _ p

theorem cfbDecrypt_eq (rk : List Word) (iv c : Bytes) : cfbDecrypt rk iv c = keystreamLoop rk (fun _ x => x) iv c :=
  cfbDecryptChunks_pieces rk iv _ c

theorem cfbEncrypt_length (rk : List Word) (iv p : Bytes) : (cfbEncrypt rk iv p).length = p.length := by
  rw [cfbEncrypt_eq, keystreamLoop_length]

theorem cfbDecrypt_length (rk : List Word) (iv c : Bytes) : (cfbDecrypt rk iv c).length = c.length := by
  rw [cfbDecrypt_eq, keystreamLoop_length]

theorem byteAt_cfbEncrypt (rk : List Word) (iv : Bytes) {p : Bytes} {k : Nat} (hk : k < p.length) :
    byteAt (cfbEncrypt rk iv p) k =
      byteAt p k ^^^ byteAt (blockEncrypt rk (previousBlock iv (cfbEncrypt rk iv p) (k / 16))) (k % 16) := by
  have hchunk : k / 16 < (p.length + 15) / 16 := by omega
  rw [cfbEncrypt_eq, byteAt_keystreamLoop iv hk, feedback_output (keystreamOut_keepsLengths iv _ p) hchunk, ← keystreamLoop]

theorem byteAt_cfbDecrypt (rk : List Word) (iv : Bytes) {c : Bytes} {k : Nat} (hk : k < c.length) :
    byteAt (cfbDecrypt rk iv c) k = byteAt c k ^^^ byteAt (blockEncrypt rk (previousBlock iv c (k / 16))) (k % 16) := by
  rw [cfbDecrypt_eq, byteAt_keystreamLoop iv hk, feedback_input]

/-- Settles O39: both loops feed back the ciphertext, the one its output and the other its input. -/
theorem cfbFeedsBackCiphertext : Obligations.CfbFeedsBackCiphertext := fun rk iv =>
  ⟨fun p => ⟨cfbEncrypt_length rk iv p, fun _ => byteAt_cfbEncrypt rk iv⟩,
    fun c => ⟨cfbDecrypt rk iv c, rfl, cfbDecrypt_length rk iv c, fun _ => byteAt_cfbDecrypt rk iv⟩⟩

/-! ### OFB (R113, R114) -/

/-- The next feedback of OFB is the keystream block, whatever the chunk. -/
def ofbNext (rk : List Word) (s _x : Bytes) : Bytes := blockEncrypt rk s

theorem ofbChunks_pieces (rk : List Word) (s : Bytes) (m : Nat) (x : Bytes) :
    ofbChunks rk s (pieces m x) = runLoop (keystreamOut rk) (ofbNext rk) s m x := by
  induction m generalizing s x with
  | zero => rfl
  | succ m ih => rw [pieces, ofbChunks, ih]; rfl

theorem ofbCrypt_eq (rk : List Word) (iv x : Bytes) : ofbCrypt rk iv x = keystreamLoop rk (ofbNext rk) iv x :=
  ofbChunks_pieces rk iv _ x

theorem feedback_ofbNext (rk : List Word) (iv x : Bytes) (i : Nat) :
    feedback (ofbNext rk) iv x i = Nat.iterate (blockEncrypt rk) i iv := by
  induction i with
  | zero => rfl
  | succ i ih => rw [feedback, ih, ofbNext, Function.iterate_succ_apply']

theorem ofbCrypt_length (rk : List Word) (iv x : Bytes) : (ofbCrypt rk iv x).length = x.length := by
  rw [ofbCrypt_eq, keystreamLoop_length]

theorem byteAt_ofbCrypt (rk : List Word) (iv : Bytes) {x : Bytes} {k : Nat} (hk : k < x.length) :
    byteAt (ofbCrypt rk iv x) k = byteAt x k ^^^ byteAt (Nat.iterate (blockEncrypt rk) (k / 16 + 1) iv) (k % 16) := by
  rw [ofbCrypt_eq, byteAt_keystreamLoop iv hk, feedback_ofbNext, Function.iterate_succ_apply']

/-- Two bytes under one keystream byte differ as the bytes themselves (R118 (a)). -/
theorem byte_xor_differences (a b s : Byte) : (a ^^^ s) ^^^ (b ^^^ s) = a ^^^ b :=
  calc (a ^^^ s) ^^^ (b ^^^ s) = (a ^^^ b) ^^^ s ^^^ s := by ac_rfl
    _ = a ^^^ b := byte_xor_xor_cancel _ s

/-- Settles O40: the keystream does not depend on the data, so it cancels out of the XOR of two ciphertexts. -/
theorem ofbByteDifferences : Obligations.OfbByteDifferences := by
  refine ⟨fun rk iv p => ⟨ofbCrypt_length rk iv p, fun _ => byteAt_ofbCrypt rk iv⟩, fun _ _ _ => rfl, ?differences⟩
  case differences =>
    intro rk iv p p' hlen k hk
    rw [modeEncrypt, modeEncrypt, byteAt_ofbCrypt rk iv hk, byteAt_ofbCrypt rk iv (hlen ▸ hk), byte_xor_differences]

/-! ### Lengths and round trips (R116, R117) -/

/-- Settles O34: in ECB and CBC the length of `Pad(P)`, in CFB and OFB that of `P`. -/
theorem ciphertextLengths : Obligations.CiphertextLengths := fun rk iv p =>
  ⟨(ecbEncrypt_length rk p).trans (pad_length_eq p), (cbcEncrypt_length rk iv p).trans (pad_length_eq p),
    cfbEncrypt_length rk iv p, ofbCrypt_length rk iv p⟩

/-- A sequence of the blocks of `Pad(P)` unpads to `P`. -/
theorem unpad_of_blocks {p q : Bytes} (hlen : q.length = (pad p).length)
    (h : ∀ i < (pad p).length / 16, pieceAt q i = pieceAt (pad p) i) : unpad q = .ok p := by
  rw [pieceAt_ext hlen (hlen ▸ pad_length_mod p) (hlen ▸ h), unpad_pad]

theorem pad_length_ne_zero (p : Bytes) : (pad p).length ≠ 0 := by
  rw [pad_length_eq]
  omega

theorem ecbDecrypt_ecbEncrypt (rk : List Word) (p : Bytes) : ecbDecrypt rk (ecbEncrypt rk p) = .ok p := by
  have hlen := ecbEncrypt_length rk p
  obtain ⟨q, hq, hblocks, hdec⟩ := ecbDecrypt_blocks rk (hlen ▸ pad_length_ne_zero p) (hlen ▸ pad_length_mod p)
  rw [hlen] at hq hblocks
  refine hdec.trans (unpad_of_blocks hq fun i hi => ?_)
  rw [hblocks i hi, pieceAt_ecbEncrypt rk p hi, blockDecrypt_blockEncrypt rk (pieceAt_length_of_block hi)]

theorem cbcDecrypt_cbcEncrypt (rk : List Word) {iv : Bytes} (hiv : iv.length = 16) (p : Bytes) :
    cbcDecrypt rk iv (cbcEncrypt rk iv p) = .ok p := by
  have hlen := cbcEncrypt_length rk iv p
  obtain ⟨q, hq, hblocks, hdec⟩ := cbcDecrypt_blocks rk hiv (hlen ▸ pad_length_ne_zero p) (hlen ▸ pad_length_mod p)
  rw [hlen] at hq hblocks
  refine hdec.trans (unpad_of_blocks hq fun i hi => ?_)
  have hblock := pieceAt_length_of_block hi
  have hprev : (previousBlock iv (cbcEncrypt rk iv p) i).length = 16 := previousBlock_length hiv (hlen ▸ hi)
  have hxor : (xorBytes (pieceAt (pad p) i) (previousBlock iv (cbcEncrypt rk iv p) i)).length = 16 := by
    rw [xorBytes_length, hblock, hprev, Nat.min_self]
  rw [hblocks i hi, pieceAt_cbcEncrypt rk iv p hi, blockDecrypt_blockEncrypt rk hxor,
    xorBytes_xorBytes_cancel (hblock.trans hprev.symm).le]

theorem cfbDecrypt_cfbEncrypt (rk : List Word) (iv p : Bytes) : cfbDecrypt rk iv (cfbEncrypt rk iv p) = p := by
  have hlen := cfbEncrypt_length rk iv p
  refine byteAt_ext ((cfbDecrypt_length _ _ _).trans hlen) fun k hk => ?_
  rw [cfbDecrypt_length] at hk
  rw [byteAt_cfbDecrypt rk iv hk, byteAt_cfbEncrypt rk iv (hlen ▸ hk), byte_xor_xor_cancel]

theorem ofbCrypt_ofbCrypt (rk : List Word) (iv p : Bytes) : ofbCrypt rk iv (ofbCrypt rk iv p) = p := by
  have hlen := ofbCrypt_length rk iv p
  refine byteAt_ext ((ofbCrypt_length _ _ _).trans hlen) fun k hk => ?_
  rw [ofbCrypt_length] at hk
  rw [byteAt_ofbCrypt rk iv hk, byteAt_ofbCrypt rk iv (hlen ▸ hk), byte_xor_xor_cancel]

/-- Settles O35: the recurrences of the two directions undo each other, block by block in ECB and CBC, byte by byte in CFB and OFB. -/
theorem modeRoundTrip : Obligations.ModeRoundTrip := by
  intro m rk iv p hiv
  cases m with
  | ecb => exact ecbDecrypt_ecbEncrypt rk p
  | cbc => exact cbcDecrypt_cbcEncrypt rk hiv p
  | cfb => exact congrArg Except.ok (cfbDecrypt_cfbEncrypt rk iv p)
  | ofb => exact congrArg Except.ok (ofbCrypt_ofbCrypt rk iv p)

end Sys2Proof.Machine

/-! The verifier (45_verifier.md R123): its comparator always passes, so ENCRYPT_VERIFIED raises what ENCRYPT raises. -/

namespace Sys2Proof.Machine

/-! ### A command that fails has failed one of its checks

One inversion per check of 40_command_execution.md R77, R78: the check raised the error, or let it through from the rest of the body. -/

theorem withInput_failure {s : State} {k n : Nat} {body : Bytes → CmdResult} {e : CmdError} (h : withInput s k n body = .failure e) :
    ∃ v, body v = .failure e := by
  obtain ⟨v, -, -, heq⟩ | ⟨-, heq⟩ := withInput_cases s k n body
  · exact ⟨v, heq ▸ h⟩
  · simp [heq] at h

theorem requireConfigured_failure {s : State} {body : CmdResult} {e : CmdError} (h : requireConfigured s body = .failure e) :
    (s.cfg = .unconfigured ∧ e = notConfigured) ∨ body = .failure e := by
  cases hc : s.cfg with
  | configured => exact .inr (requireConfigured_configured body hc ▸ h)
  | unconfigured =>
    rw [requireConfigured_unconfigured body hc] at h
    cases h
    exact .inl ⟨rfl, rfl⟩

theorem requireCapacity_failure {s : State} {body : CmdResult} {e : CmdError} (h : requireCapacity s body = .failure e) :
    (s.inCap < s.inLen.toNat ∧ e = exceedsCapacity) ∨ body = .failure e := by
  obtain hfits | hover := le_or_gt s.inLen.toNat s.inCap
  · exact .inr (requireCapacity_fits body hfits ▸ h)
  · rw [requireCapacity_exceeds body hover] at h
    cases h
    exact .inl ⟨hover, rfl⟩

theorem withPayload_failure {s : State} {body : Bytes → CmdResult} {e : CmdError} (h : withPayload s body = .failure e) :
    (s.inCap < s.inLen.toNat ∧ e = exceedsCapacity) ∨ ∃ p, body p = .failure e :=
  (requireCapacity_failure h).imp_right withInput_failure

theorem emit_failure {r : Except CmdError Bytes} {e : CmdError} (h : emit r = .failure e) : r = .error e := by
  cases r with
  | ok p => cases h
  | error e' => cases h; rfl

/-- Everything ENCRYPT, DECRYPT and ENCRYPT_VERIFIED can raise: a check's error, or the operation's own on the payload. -/
theorem cipherBody_failure {f : Mode → List Word → Bytes → Bytes → Except CmdError Bytes} {s : State} {e : CmdError}
    (h : cipherBody f s = .failure e) :
    (s.cfg = .unconfigured ∧ e = notConfigured) ∨ (s.inCap < s.inLen.toNat ∧ e = exceedsCapacity) ∨
      ∃ p, f s.mode s.rk s.iv p = .error e := by
  refine (requireConfigured_failure h).imp_right fun h => (withPayload_failure h).imp_right ?_
  rintro ⟨p, hp⟩
  exact ⟨p, emit_failure hp⟩

/-- A completion leaves CODE alone unless the command failed, and then writes the code of its error. -/
theorem complete_errCode {r : CmdResult} {s t : State} (h : complete r s = .next t) :
    t.errCode = s.errCode ∨ ∃ e, r = .failure e ∧ t.errCode = e.kind.code := by
  obtain ⟨upd, -, rfl⟩ | ⟨upd, out, -, rfl⟩ | ⟨e, hr, rfl⟩ := complete_cases h
  · exact .inl (by cases upd <;> rfl)
  · exact .inl (by cases upd <;> rfl)
  · exact .inr ⟨e, hr, rfl⟩

/-! ### The comparator always passes (R123) -/

/-- The round trip of R117 answers the comparator with the plaintext it compares to. -/
theorem encryptVerified_eq (m : Mode) (rk : List Word) {iv : Bytes} (hiv : iv.length = 16) (p : Bytes) :
    encryptVerified m rk iv p = .ok (modeEncrypt m rk iv p) := by
  rw [encryptVerified, modeRoundTrip m rk iv p hiv]
  exact if_neg (not_not.2 rfl)

theorem exec_encryptVerified_eq_encrypt {s : State} (hiv : s.iv.length = 16) : exec .encryptVerified s = exec .encrypt s := by
  have hbody : cipherBody encryptVerified s = cipherBody (fun m rk iv p => .ok (modeEncrypt m rk iv p)) s := by
    simp only [cipherBody, encryptVerified_eq s.mode s.rk hiv]
  rw [exec_eq_complete, exec_eq_complete, resultOf, resultOf, hbody]

/-- ENCRYPT raises NOT_CONFIGURED and EXCEEDS_CAPACITY only: its operation has no error of its own. -/
theorem exec_encrypt_errCode {s t : State} (h : exec .encrypt s = .next t) : t.errCode = s.errCode ∨ t.errCode = 1 ∨ t.errCode = 6 := by
  rw [exec_eq_complete, resultOf] at h
  refine (complete_errCode h).imp_right ?_
  rintro ⟨e, hr, hcode⟩
  obtain ⟨-, rfl⟩ | ⟨-, rfl⟩ | ⟨p, hp⟩ := cipherBody_failure hr
  · exact .inl hcode
  · exact .inr hcode
  · cases hp

/-- Settles O36: by the round trip of R117 the comparator passes, so ENCRYPT_VERIFIED ends as ENCRYPT does, which never raises CODE 4. -/
theorem verifierNeverMismatches : Obligations.VerifierNeverMismatches := by
  refine ⟨fun m rk _ p hiv => encryptVerified_eq m rk hiv p, fun _ => exec_encryptVerified_eq_encrypt, ?never⟩
  case never =>
    intro s t hiv h hs
    rw [exec_encryptVerified_eq_encrypt hiv] at h
    obtain hcode | hcode | hcode := exec_encrypt_errCode h <;> rw [hcode]
    · exact hs
    · decide
    · decide

end Sys2Proof.Machine

/-! Errors and faults (60_exceptions.md): an error is precise (R128), and a read that covers a ⊥ cell is the model fault (R132). -/

namespace Sys2Proof.Machine

/-! ### Precise errors (R128) -/

/-- Settles O57: only a failed completion raises CODE from 0, and it is `State.reportError`, which writes CODE, DETAIL, BUSY and DONE. -/
theorem errorsArePrecise : Obligations.ErrorsArePrecise := by
  intro i s t h hs ht
  rw [exec_eq_complete] at h
  obtain hcode | ⟨e, hfail, -⟩ := complete_errCode h
  · exact absurd (hcode.trans hs) ht
  · rw [hfail] at h
    cases h
    rfl

/-! ### The model fault (R132)

Each body reaches its read when the checks before it pass, and a read from index 0 that covers a ⊥ cell is the model fault. -/

theorem State.not_inputWritten_iff {s : State} {n : Nat} : ¬ s.InputWritten n ↔ ∃ k < n, s.inByte k = none := by
  simp [State.InputWritten]

theorem withInput_unwritten {s : State} {n : Nat} (body : Bytes → CmdResult) (h : ¬ s.InputWritten n) :
    withInput s 0 n body = .modelFault :=
  withInput_none body (by simpa using State.not_inputWritten_iff.1 h)

/-- Two reads one after the other fault on a ⊥ cell in the range of either: the second range is reached once the first is written. -/
theorem withInput_withInput_unwritten {s : State} {m n : Nat} (body : Bytes → Bytes → CmdResult) (h : ¬ s.InputWritten (m + n)) :
    withInput s 0 m (fun v => withInput s m n (body v)) = .modelFault := by
  by_cases hfirst : s.InputWritten m
  · obtain ⟨k, hk, hnone⟩ := State.not_inputWritten_iff.1 h
    have hmk : m ≤ k := Nat.le_of_not_lt fun hlt => hfirst k hlt hnone
    have hsecond : ∃ j < n, s.inByte (m + j) = none := ⟨k - m, by omega, by rwa [Nat.add_sub_cancel' hmk]⟩
    obtain ⟨v, -, -, heq⟩ | ⟨-, heq⟩ := withInput_cases s 0 m (fun v => withInput s m n (body v))
    · rw [heq, withInput_none _ hsecond]
    · exact heq
  · exact withInput_unwritten _ hfirst

theorem withPayload_unwritten {s : State} (body : Bytes → CmdResult) (hcap : s.inLen.toNat ≤ s.inCap)
    (h : ¬ s.InputWritten s.inLen.toNat) : withPayload s body = .modelFault := by
  rw [withPayload, requireCapacity_fits _ hcap, withInput_unwritten body h]

theorem cipherBody_unwritten (f : Mode → List Word → Bytes → Bytes → Except CmdError Bytes) {s : State} (hcfg : s.cfg = .configured)
    (hcap : s.inLen.toNat ≤ s.inCap) (h : ¬ s.InputWritten s.inLen.toNat) : cipherBody f s = .modelFault := by
  rw [cipherBody, requireConfigured_configured _ hcfg, withPayload_unwritten _ hcap h]

theorem blockBody_unwritten (f : List Word → Bytes → Bytes) {s : State} (hcfg : s.cfg = .configured) (hlen : s.inLen = 16)
    (h : ¬ s.InputWritten 16) : blockBody f s = .modelFault := by
  rw [blockBody, requireConfigured_configured _ hcfg, requireOneBlock_block _ hlen, withInput_unwritten _ h]

/-- With its checks passed, CONFIG reads the key and then the IV (41_key_schedule.md R90). -/
theorem configBody_reads {mode : Option Nat} {m : Mode} {s : State} (hcfg : s.cfg = .unconfigured)
    (hmode : modeOfCode (mode.getD 0) = some m) :
    configBody mode 16 16 s =
      withInput s 0 16 (fun key => withInput s 16 16 (fun iv => .success (some (newEngine m key iv)) none)) := by
  simp [configBody, hcfg, hmode]

theorem configBody_unwritten {mode : Option Nat} {m : Mode} {s : State} (hcfg : s.cfg = .unconfigured)
    (hmode : modeOfCode (mode.getD 0) = some m) (h : ¬ s.InputWritten 32) : configBody mode 16 16 s = .modelFault := by
  rw [configBody_reads hcfg hmode]
  exact withInput_withInput_unwritten (fun key iv => .success (some (newEngine m key iv)) none) h

theorem modeOfCode_code (m : Mode) : modeOfCode m.code.toNat = some m := by cases m <;> rfl

theorem exec_of_modelFault {i : Instr} {s : State} (h : resultOf i s = .modelFault) : exec i s = .fault .unwrittenInput := by
  rw [exec_eq_complete, h, complete]

/-- Settles O14: with the checks before it passed, each command's body is its read of the unwritten range. -/
theorem unwrittenInputFaults : Obligations.UnwrittenInputFaults := by
  refine ⟨fun s m hcfg h => ⟨?config, ?configDefault⟩, fun s hcfg hcap h => ⟨?encrypt, ?decrypt, ?encryptVerified⟩,
    fun s hcfg hlen h => ⟨?blockEnc, ?blockDec⟩, fun s hcap h => ⟨?pad, ?unpad⟩⟩
  case config => exact exec_of_modelFault (configBody_unwritten hcfg (modeOfCode_code m) h)
  case configDefault => exact exec_of_modelFault (configBody_unwritten (mode := none) (m := .ecb) hcfg rfl h)
  case encrypt => exact exec_of_modelFault (cipherBody_unwritten (fun m rk iv p => .ok (modeEncrypt m rk iv p)) hcfg hcap h)
  case decrypt => exact exec_of_modelFault (cipherBody_unwritten _ hcfg hcap h)
  case encryptVerified => exact exec_of_modelFault (cipherBody_unwritten _ hcfg hcap h)
  case blockEnc => exact exec_of_modelFault (blockBody_unwritten _ hcfg hlen h)
  case blockDec => exact exec_of_modelFault (blockBody_unwritten _ hcfg hlen h)
  case pad => exact exec_of_modelFault (withPayload_unwritten _ hcap h)
  case unpad => exact exec_of_modelFault (withPayload_unwritten _ hcap h)

end Sys2Proof.Machine

/-! Commands in the wrong CFG state (70_reset_and_hazards.md R148): a cipher command needs the engine instance, CONFIG needs that there is none. -/

namespace Sys2Proof.Machine

/-- A command whose result is a failure reports that error and changes nothing else (60_exceptions.md R128). -/
theorem failsWith_of_failure {i : Instr} {s : State} {e : CmdError} (h : resultOf i s = .failure e) :
    FailsWith i s e.kind.code e.detail :=
  ⟨s.reportError e, by rw [exec_eq_complete, h, complete], s.reportError_reports e⟩

theorem configBody_configured (mode : Option Nat) (klen ivlen : Nat) {s : State} (h : s.cfg = .configured) :
    configBody mode klen ivlen s = .failure alreadyConfigured :=
  if_pos h

/-- The configuration check is the first of every cipher command's body (40_command_execution.md R77). -/
theorem resultOf_cipher_unconfigured {i : Instr} {s : State} (hi : isCipher i = true) (h : s.cfg = .unconfigured) :
    resultOf i s = .failure notConfigured := by
  cases i
  case encrypt | decrypt | encryptVerified | blockEnc | blockDec => exact requireConfigured_unconfigured _ h
  case nop | config | configDefault | pad | unpad | clear => cases hi

theorem resultOf_config_configured {i : Instr} {s : State} (hi : isConfig i = true) (h : s.cfg = .configured) :
    resultOf i s = .failure alreadyConfigured := by
  cases i
  case config mode klen ivlen => exact configBody_configured (some mode) klen ivlen h
  case configDefault klen ivlen => exact configBody_configured none klen ivlen h
  case nop | encrypt | decrypt | encryptVerified | blockEnc | blockDec | pad | unpad | clear => cases hi

/-- Settles O20: in the wrong CFG state the first check of the command's body fails, with NOT_CONFIGURED or with ALREADY_CONFIGURED. -/
theorem configurationStateErrors : Obligations.ConfigurationStateErrors :=
  fun _ _ => ⟨fun hi h => failsWith_of_failure (resultOf_cipher_unconfigured hi h),
    fun hi h => failsWith_of_failure (resultOf_config_configured hi h)⟩

end Sys2Proof.Machine

/-! The encoding (30_encoding.md): a word's number is the weighted sum of its fields, so the round trips and the illegal words are arithmetic. -/

namespace Sys2Proof

/-- A concatenation as a number: the left word above the right one. -/
theorem toNat_append_eq_add {m n : Nat} (x : BitVec m) (y : BitVec n) : (x ++ y).toNat = x.toNat * 2 ^ n + y.toNat := by
  rw [BitVec.toNat_append, ← Nat.shiftLeft_add_eq_or_of_lt y.isLt, Nat.shiftLeft_eq]

/-! ### The fields of a word as numbers -/

theorem opField_eq (w : Word) : opField w = w.toNat % 16 := by simp [opField]
theorem modeField_eq (w : Word) : modeField w = w.toNat / 2 ^ 4 % 16 := by simp [modeField, Nat.shiftRight_eq_div_pow]
theorem mpField_eq (w : Word) : mpField w = w.toNat / 2 ^ 8 % 2 := by simp [mpField, Nat.shiftRight_eq_div_pow]
theorem klenField_eq (w : Word) : klenField w = w.toNat / 2 ^ 9 % 32 := by simp [klenField, Nat.shiftRight_eq_div_pow]
theorem ivlenField_eq (w : Word) : ivlenField w = w.toNat / 2 ^ 14 % 32 := by simp [ivlenField, Nat.shiftRight_eq_div_pow]

theorem reservedFieldC_eq (w : Word) : reservedFieldC w = w.toNat / 2 ^ 19 := by
  have := w.isLt
  simp only [reservedFieldC, BitVec.extractLsb'_toNat, Nat.shiftRight_eq_div_pow]
  omega

theorem reservedFieldP_eq (w : Word) : reservedFieldP w = w.toNat / 2 ^ 4 := by
  have := w.isLt
  simp only [reservedFieldP, BitVec.extractLsb'_toNat, Nat.shiftRight_eq_div_pow]
  omega

theorem plainWord_toNat (op : Nat) : (plainWord op).toNat = op % 16 := by
  simp only [plainWord, toNat_append_eq_add, BitVec.toNat_ofNat]
  omega

theorem configWord_toNat (mp mode klen ivlen : Nat) :
    (configWord mp mode klen ivlen).toNat =
      1 + 2 ^ 4 * (mode % 16) + 2 ^ 8 * (mp % 2) + 2 ^ 9 * (klen % 32) + 2 ^ 14 * (ivlen % 32) := by
  simp only [configWord, toNat_append_eq_add, BitVec.toNat_ofNat]
  omega

/-! ### The decoder, kind by kind (R61, R68) -/

/-- What a format-P opcode names is a command whose word is that opcode (R62, R66). -/
theorem plainOfOpcode_some {op : Nat} {i : Instr} (h : plainOfOpcode op = some i) :
    i.wf = true ∧ encode i = plainWord op ∧ op < 10 := by
  unfold plainOfOpcode at h
  split at h <;> cases h <;> exact ⟨rfl, rfl, by decide⟩

theorem plainOfOpcode_eq_none_iff {op : Nat} : plainOfOpcode op = none ↔ op = 1 ∨ 10 ≤ op := by
  obtain hlt | hge := Nat.lt_or_ge op 10
  · interval_cases op <;> decide
  · cases h : plainOfOpcode op with
    | none => simp [hge]
    | some i =>
      obtain ⟨-, -, hlt⟩ := plainOfOpcode_some h
      exact absurd hlt (Nat.not_lt.2 hge)

theorem decode_of_config {w : Word} (h : opField w = 1) : decode w = decodeConfig w := if_pos h

theorem decode_of_reservedOpcode {w : Word} (h : 10 ≤ opField w) : decode w = .illegal .reservedOpcode := by
  rw [decode, if_neg (by omega), plainOfOpcode_eq_none_iff.2 (.inr h)]

theorem decode_of_plain {w : Word} {i : Instr} (h : plainOfOpcode (opField w) = some i) :
    decode w = if reservedFieldP w ≠ 0 then .illegal .reservedBits else .instr i := by
  have hne : opField w ≠ 1 := fun h1 => by simp [h1, plainOfOpcode] at h
  rw [decode, if_neg hne, h]

/-- The three kinds of words: CONFIG's, those of a reserved opcode, and those of a format-P opcode. -/
theorem opField_cases (w : Word) :
    opField w = 1 ∨ 10 ≤ opField w ∨ (opField w ≠ 1 ∧ opField w < 10 ∧ ∃ i, plainOfOpcode (opField w) = some i) := by
  by_cases h : plainOfOpcode (opField w) = none
  · rw [plainOfOpcode_eq_none_iff] at h
    omega
  · obtain ⟨i, hi⟩ := Option.ne_none_iff_exists'.1 h
    rw [plainOfOpcode_eq_none_iff] at h
    exact .inr (.inr ⟨by omega, by omega, i, hi⟩)

/-! ### The fields of a format-C word, and the word of the fields -/

section Fields
variable (mp mode klen ivlen : Nat)

@[simp] theorem opField_configWord : opField (configWord mp mode klen ivlen) = 1 := by
  rw [opField_eq, configWord_toNat]; omega

@[simp] theorem modeField_configWord : modeField (configWord mp mode klen ivlen) = mode % 16 := by
  rw [modeField_eq, configWord_toNat]; omega

@[simp] theorem mpField_configWord : mpField (configWord mp mode klen ivlen) = mp % 2 := by
  rw [mpField_eq, configWord_toNat]; omega

@[simp] theorem klenField_configWord : klenField (configWord mp mode klen ivlen) = klen % 32 := by
  rw [klenField_eq, configWord_toNat]; omega

@[simp] theorem ivlenField_configWord : ivlenField (configWord mp mode klen ivlen) = ivlen % 32 := by
  rw [ivlenField_eq, configWord_toNat]; omega

@[simp] theorem reservedFieldC_configWord : reservedFieldC (configWord mp mode klen ivlen) = 0 := by
  rw [reservedFieldC_eq, configWord_toNat]; omega

end Fields

/-- With the opcode of CONFIG and no reserved bit, a word is made of its fields. -/
theorem configWord_fields {w : Word} (hop : opField w = 1) (hres : reservedFieldC w = 0) :
    configWord (mpField w) (modeField w) (klenField w) (ivlenField w) = w := by
  apply BitVec.eq_of_toNat_eq
  rw [opField_eq] at hop
  rw [reservedFieldC_eq] at hres
  rw [configWord_toNat, mpField_eq, modeField_eq, klenField_eq, ivlenField_eq]
  omega

theorem plainWord_opField {w : Word} (hres : reservedFieldP w = 0) : plainWord (opField w) = w := by
  apply BitVec.eq_of_toNat_eq
  rw [reservedFieldP_eq] at hres
  rw [plainWord_toNat, opField_eq]
  omega

/-! ### The round trips and the illegal words -/

/-- Settles O1: the fields of a format-C word are the command's, and a format-P command has one word, which is evaluated. -/
theorem decodeOfEncode : Obligations.DecodeOfEncode := by
  intro i hwf
  cases i
  case config mode klen ivlen =>
    simp only [Instr.wf, modeFits, klenFits, ivlenFits, Bool.and_eq_true, decide_eq_true_eq, and_assoc] at hwf
    obtain ⟨hmode, hklen, hivlen⟩ := hwf
    rw [encode, decode_of_config (opField_configWord _ _ _ _)]
    simp [decodeConfig, Nat.mod_eq_of_lt hmode, Nat.mod_eq_of_lt hklen, Nat.mod_eq_of_lt hivlen]
  case configDefault klen ivlen =>
    simp only [Instr.wf, klenFits, ivlenFits, Bool.and_eq_true, decide_eq_true_eq] at hwf
    obtain ⟨hklen, hivlen⟩ := hwf
    rw [encode, decode_of_config (opField_configWord _ _ _ _)]
    simp [decodeConfig, Nat.mod_eq_of_lt hklen, Nat.mod_eq_of_lt hivlen]
  case nop | encrypt | decrypt | encryptVerified | blockEnc | blockDec | pad | unpad | clear => decide

theorem klenFits_klenField (w : Word) : klenFits (klenField w) = true := by simp [klenFits, klenField_eq, Nat.mod_lt]
theorem ivlenFits_ivlenField (w : Word) : ivlenFits (ivlenField w) = true := by simp [ivlenFits, ivlenField_eq, Nat.mod_lt]
theorem modeFits_modeField (w : Word) : modeFits (modeField w) = true := by simp [modeFits, modeField_eq, Nat.mod_lt]

theorem mpField_le_one (w : Word) : mpField w ≤ 1 := by
  rw [mpField_eq]
  omega

theorem encode_of_decodeConfig {w : Word} {i : Instr} (hop : opField w = 1) (h : decodeConfig w = .instr i) :
    i.wf = true ∧ encode i = w := by
  unfold decodeConfig at h
  split_ifs at h with hres hmp hmode <;> cases h
  · have hword := configWord_fields hop (not_not.1 hres)
    rw [hmp, not_not.1 hmode] at hword
    exact ⟨by simp [Instr.wf, klenFits_klenField, ivlenFits_ivlenField], hword⟩
  · have hword := configWord_fields hop (not_not.1 hres)
    rw [show mpField w = 1 by have := mpField_le_one w; omega] at hword
    exact ⟨by simp [Instr.wf, modeFits_modeField, klenFits_klenField, ivlenFits_ivlenField], hword⟩

/-- Settles O2: an accepted word has no reserved bit, so it is the word of its fields. -/
theorem encodeOfDecode : Obligations.EncodeOfDecode := by
  intro w i h
  obtain hop | hop | ⟨-, -, j, hj⟩ := opField_cases w
  · exact encode_of_decodeConfig hop (decode_of_config hop ▸ h)
  · rw [decode_of_reservedOpcode hop] at h
    cases h
  · rw [decode_of_plain hj] at h
    split_ifs at h with hres
    cases h
    obtain ⟨hwf, henc, -⟩ := plainOfOpcode_some hj
    exact ⟨hwf, henc.trans (plainWord_opField (not_not.1 hres))⟩

theorem decodeConfig_ne_reservedOpcode (w : Word) : decodeConfig w ≠ .illegal .reservedOpcode := by
  unfold decodeConfig
  split_ifs <;> simp

theorem decodeConfig_reservedBits_iff {w : Word} :
    decodeConfig w = .illegal .reservedBits ↔ reservedFieldC w ≠ 0 ∨ (mpField w = 0 ∧ modeField w ≠ 0) := by
  unfold decodeConfig
  split_ifs with hres hmp hmode
  · simp [hres]
  · simp [hmp, hmode]
  · simp [not_not.1 hres, not_not.1 hmode]
  · simp [not_not.1 hres, hmp]

/-- Settles O3: each of the three kinds of words has its own illegal encodings. -/
theorem illegalWordsExactly : Obligations.IllegalWordsExactly := by
  intro w
  rw [← opField_eq, ← modeField_eq, ← reservedFieldP_eq, ← reservedFieldC_eq, ← mpField_eq]
  obtain hop | hop | ⟨hne, hlt, i, hi⟩ := opField_cases w
  · rw [decode_of_config hop, decodeConfig_reservedBits_iff, hop]
    simp [decodeConfig_ne_reservedOpcode]
  · rw [decode_of_reservedOpcode hop]
    simp [hop, Nat.not_lt.2 hop]
  · rw [decode_of_plain hi]
    split_ifs with hres <;> simp [hne, hlt, Nat.not_le.2 hlt, hres]

end Sys2Proof

/-! Ciphertexts that differ (44_mode_drivers.md R118 (d), R119): encryption undoes decryption, so a plaintext has one ciphertext under one key and IV,
and under another IV it has another one. -/

namespace Sys2Proof.Machine

/-! ### What decryption answers -/

theorem unpad_error {q : Bytes} {e : CmdError} (h : unpad q = .error e) : e.kind = .padding := by
  simp only [unpad] at h
  split_ifs at h <;> cases h <;> rfl

theorem ecbDecrypt_error {rk : List Word} {c : Bytes} {e : CmdError} (h : ecbDecrypt rk c = .error e) : e.kind = .padding := by
  unfold ecbDecrypt at h
  split_ifs at h
  · cases h; rfl
  · exact unpad_error h

theorem cbcDecrypt_error {rk : List Word} {iv c : Bytes} {e : CmdError} (h : cbcDecrypt rk iv c = .error e) : e.kind = .padding := by
  unfold cbcDecrypt at h
  split_ifs at h
  · cases h; rfl
  · exact unpad_error h

/-- Decryption fails only with PADDING, in ECB and CBC (R115). -/
theorem modeDecrypt_error {m : Mode} {rk : List Word} {iv c : Bytes} {e : CmdError} (h : modeDecrypt m rk iv c = .error e) :
    e.kind = .padding ∧ (m = .ecb ∨ m = .cbc) := by
  cases m
  case ecb => exact ⟨ecbDecrypt_error h, .inl rfl⟩
  case cbc => exact ⟨cbcDecrypt_error h, .inr rfl⟩
  case cfb | ofb => cases h

/-! ### Encryption undoes decryption -/

theorem blockEncrypt_blockDecrypt (rk : List Word) {b : Bytes} (h : b.length = 16) : blockEncrypt rk (blockDecrypt rk b) = b :=
  (blockRoundTrip rk b h).2

/-- Two sequences that agree at a piece whenever they agree at the piece before agree at every piece. -/
theorem pieceAt_eq_of_previousBlock {iv a b : Bytes} {n : Nat}
    (h : ∀ i < n, previousBlock iv a i = previousBlock iv b i → pieceAt a i = pieceAt b i) : ∀ i < n, pieceAt a i = pieceAt b i := by
  have hprev : ∀ i ≤ n, previousBlock iv a i = previousBlock iv b i := by
    intro i
    induction i with
    | zero => exact fun _ => rfl
    | succ i ih => exact fun hi => h i hi (ih (Nat.le_of_lt hi))
  exact fun i hi => hprev (i + 1) hi

/-- Sequences are equal if their chunks are, the last of which may be short. -/
theorem eq_of_chunks {a b : Bytes} (hlen : a.length = b.length) (h : ∀ i < (a.length + 15) / 16, pieceAt a i = pieceAt b i) : a = b := by
  refine byteAt_ext hlen fun k hk => ?_
  rw [← byteAt_pieceAt a, ← byteAt_pieceAt b, h (k / 16) (by omega)]

theorem blocks_of_not_badLength {c : Bytes} (h : ¬ (c.length = 0 ∨ c.length % 16 ≠ 0)) : c.length ≠ 0 ∧ c.length % 16 = 0 := by omega

theorem ecbEncrypt_of_ecbDecrypt {rk : List Word} {c p : Bytes} (h : ecbDecrypt rk c = .ok p) : ecbEncrypt rk p = c := by
  by_cases hbad : c.length = 0 ∨ c.length % 16 ≠ 0
  · rw [ecbDecrypt_badLength rk hbad] at h
    cases h
  · obtain ⟨hne, hmod⟩ := blocks_of_not_badLength hbad
    obtain ⟨q, hq, hblocks, hdec⟩ := ecbDecrypt_blocks rk hne hmod
    obtain rfl : pad p = q := pad_of_unpad (hdec ▸ h)
    have hlen : (ecbEncrypt rk p).length = c.length := (ecbEncrypt_length rk p).trans hq
    refine pieceAt_ext hlen (hlen ▸ hmod) fun i hi => ?_
    rw [hlen] at hi
    rw [pieceAt_ecbEncrypt rk p (hq ▸ hi), hblocks i hi, blockEncrypt_blockDecrypt rk (pieceAt_length_of_block hi)]

theorem cbcEncrypt_of_cbcDecrypt {rk : List Word} {iv c p : Bytes} (hiv : iv.length = 16) (h : cbcDecrypt rk iv c = .ok p) :
    cbcEncrypt rk iv p = c := by
  by_cases hbad : c.length = 0 ∨ c.length % 16 ≠ 0
  · rw [cbcDecrypt_badLength rk iv hbad] at h
    cases h
  · obtain ⟨hne, hmod⟩ := blocks_of_not_badLength hbad
    obtain ⟨q, hq, hblocks, hdec⟩ := cbcDecrypt_blocks rk hiv hne hmod
    obtain rfl : pad p = q := pad_of_unpad (hdec ▸ h)
    have hlen : (cbcEncrypt rk iv p).length = c.length := (cbcEncrypt_length rk iv p).trans hq
    refine pieceAt_ext hlen (hlen ▸ hmod) (pieceAt_eq_of_previousBlock (iv := iv) fun i hi hprev => ?_)
    rw [hlen] at hi
    have hcancel : (blockDecrypt rk (pieceAt c i)).length ≤ (previousBlock iv c i).length := by
      rw [blockDecrypt_length, previousBlock_length hiv hi]
    rw [pieceAt_cbcEncrypt rk iv p (hq ▸ hi), hprev, hblocks i hi, xorBytes_xorBytes_cancel hcancel,
      blockEncrypt_blockDecrypt rk (pieceAt_length_of_block hi)]

theorem xorKeystream_xorKeystream_cancel {x s : Bytes} (h : x.length ≤ s.length) : xorKeystream (xorKeystream x s) s = x := by
  rw [xorKeystream, xorKeystream_length, Nat.min_eq_left h, xorKeystream]
  exact xorBytes_xorBytes_cancel (by rw [trunc_length, Nat.min_eq_left h])

theorem pieceAt_keystreamLoop {rk : List Word} {next : Bytes → Bytes → Bytes} (fb : Bytes) {x : Bytes} {i : Nat} (hi : i < (x.length + 15) / 16) :
    pieceAt (keystreamLoop rk next fb x) i = xorKeystream (pieceAt x i) (blockEncrypt rk (feedback next fb x i)) :=
  pieceAt_runLoop (keystreamOut_keepsLengths fb _ x) hi

theorem pieceAt_cfbEncrypt (rk : List Word) (iv : Bytes) {p : Bytes} {i : Nat} (hi : i < (p.length + 15) / 16) :
    pieceAt (cfbEncrypt rk iv p) i = xorKeystream (pieceAt p i) (blockEncrypt rk (previousBlock iv (cfbEncrypt rk iv p) i)) := by
  rw [cfbEncrypt_eq, pieceAt_keystreamLoop iv hi, feedback_output (keystreamOut_keepsLengths iv _ p) hi, ← keystreamLoop]

theorem pieceAt_cfbDecrypt (rk : List Word) (iv : Bytes) {c : Bytes} {i : Nat} (hi : i < (c.length + 15) / 16) :
    pieceAt (cfbDecrypt rk iv c) i = xorKeystream (pieceAt c i) (blockEncrypt rk (previousBlock iv c i)) := by
  rw [cfbDecrypt_eq, pieceAt_keystreamLoop iv hi, feedback_input]

theorem cfbEncrypt_cfbDecrypt (rk : List Word) (iv c : Bytes) : cfbEncrypt rk iv (cfbDecrypt rk iv c) = c := by
  have hdec := cfbDecrypt_length rk iv c
  have hlen := (cfbEncrypt_length rk iv (cfbDecrypt rk iv c)).trans hdec
  refine eq_of_chunks hlen (pieceAt_eq_of_previousBlock (iv := iv) fun i hi hprev => ?_)
  rw [hlen] at hi
  rw [pieceAt_cfbEncrypt rk iv (hdec ▸ hi), hprev, pieceAt_cfbDecrypt rk iv hi, xorKeystream_xorKeystream_cancel]
  rw [pieceAt_length, blockEncrypt_length]
  exact Nat.min_le_left _ _

/-- A plaintext that decryption answers is encrypted to the ciphertext it came from. -/
theorem modeEncrypt_of_modeDecrypt {m : Mode} {rk : List Word} {iv c p : Bytes} (hiv : iv.length = 16) (h : modeDecrypt m rk iv c = .ok p) :
    modeEncrypt m rk iv p = c := by
  cases m
  case ecb => exact ecbEncrypt_of_ecbDecrypt h
  case cbc => exact cbcEncrypt_of_cbcDecrypt hiv h
  case cfb => cases h; exact cfbEncrypt_cfbDecrypt rk iv c
  case ofb => cases h; exact ofbCrypt_ofbCrypt rk iv c

/-- Settles O42: only the ciphertext of `P` itself decrypts to `P`. -/
theorem corruptionIsNeverTheOriginal : Obligations.CorruptionIsNeverTheOriginal := by
  intro m rk iv p c hiv _ hne
  cases h : modeDecrypt m rk iv c with
  | error e => exact .inl ⟨e, rfl, modeDecrypt_error h⟩
  | ok p' =>
    refine .inr ⟨p', rfl, ?_⟩
    rintro rfl
    exact hne (modeEncrypt_of_modeDecrypt hiv h).symm

/-! ### Another IV gives another first ciphertext block -/

theorem xorBytes_comm (a b : Bytes) : xorBytes a b = xorBytes b a := List.zipWith_comm_of_comm BitVec.xor_comm

theorem xorBytes_left_cancel {x a b : Bytes} (ha : a.length ≤ x.length) (hb : b.length ≤ x.length) (h : xorBytes x a = xorBytes x b) : a = b := by
  rw [← xorBytes_xorBytes_cancel ha, xorBytes_comm a, h, xorBytes_comm x, xorBytes_xorBytes_cancel hb]

theorem blockEncrypt_inj {rk : List Word} {a b : Bytes} (ha : a.length = 16) (hb : b.length = 16) (h : blockEncrypt rk a = blockEncrypt rk b) :
    a = b := by
  rw [← blockDecrypt_blockEncrypt rk ha, h, blockDecrypt_blockEncrypt rk hb]

section Iv
variable {rk : List Word} {iv iv' p : Bytes} (hiv : iv.length = 16) (hiv' : iv'.length = 16)
include hiv hiv'

theorem cbcEncrypt_iv_inj (h : cbcEncrypt rk iv p = cbcEncrypt rk iv' p) : iv = iv' := by
  have hpos : 0 < (pad p).length / 16 := by rw [pad_length_eq]; omega
  have hlen := pieceAt_length_of_block hpos
  have hfirst := congrArg (pieceAt · 0) h
  simp only [pieceAt_cbcEncrypt rk _ p hpos, previousBlock_zero] at hfirst
  have hxor := blockEncrypt_inj (by rw [xorBytes_length, hlen, hiv]; rfl) (by rw [xorBytes_length, hlen, hiv']; rfl) hfirst
  exact xorBytes_left_cancel (hiv.trans hlen.symm).le (hiv'.trans hlen.symm).le hxor

theorem keystreamLoop_iv_inj {next : Bytes → Bytes → Bytes} (hp : 16 ≤ p.length)
    (h : keystreamLoop rk next iv p = keystreamLoop rk next iv' p) : iv = iv' := by
  have hpos : 0 < (p.length + 15) / 16 := by omega
  have hlen : (pieceAt p 0).length = 16 := pieceAt_length_of_block (by omega)
  have htrunc (fb : Bytes) : trunc (blockEncrypt rk fb) 16 = blockEncrypt rk fb := List.take_of_length_le (blockEncrypt_length rk fb).le
  have hfirst := congrArg (pieceAt · 0) h
  simp only [pieceAt_keystreamLoop _ hpos, xorKeystream, hlen, htrunc, feedback] at hfirst
  have hstream := xorBytes_left_cancel (by rw [blockEncrypt_length, hlen]) (by rw [blockEncrypt_length, hlen]) hfirst
  exact blockEncrypt_inj hiv hiv' hstream

end Iv

/-- Settles O41: the first ciphertext block, and in CFB and OFB the first whole chunk, gives the IV away to who knows the plaintext and the key. -/
theorem ivChangesCiphertext : Obligations.IvChangesCiphertext := by
  intro rk iv iv' p hiv hiv' hne
  refine ⟨fun h => hne (cbcEncrypt_iv_inj hiv hiv' h), fun hp => ⟨fun h => ?cfb, fun h => ?ofb⟩⟩
  case cfb =>
    simp only [modeEncrypt, cfbEncrypt_eq] at h
    exact hne (keystreamLoop_iv_inj hiv hiv' hp h)
  case ofb =>
    simp only [modeEncrypt, ofbCrypt_eq] at h
    exact hne (keystreamLoop_iv_inj hiv hiv' hp h)

end Sys2Proof.Machine

/-! The invariant of the machine (10_state.md section 3 to 5): each named update of the state keeps it where the model applies that update, and so
does every agent's step. -/

namespace Sys2Proof.Machine

/-! ### CONFIG's checks and the lengths of a command's output -/

/-- Everything CONFIG's checks can do: raise a CONFIGURATION error or UNSUPPORTED_MODE, or reach the reads of key and IV (41_key_schedule.md R90). -/
theorem configBody_cases (mode : Option Nat) (klen ivlen : Nat) (s : State) :
    (∃ e, configBody mode klen ivlen s = .failure e ∧
      (e.kind = .configuration ∨ e.kind = .unsupportedMode ∧ modeOfCode (mode.getD 0) = none)) ∨
    ∃ m, configBody mode klen ivlen s =
      withInput s 0 16 (fun key => withInput s 16 16 (fun iv => .success (some (newEngine m key iv)) none)) := by
  unfold configBody
  iterate 5 (split; · exact .inl ⟨_, rfl, .inl rfl⟩)
  split
  next hnone => exact .inl ⟨_, rfl, .inr ⟨rfl, hnone⟩⟩
  next m _ => exact .inr ⟨m, rfl⟩

/-- A payload that reached the body fits (40_command_execution.md R78). -/
theorem withPayload_success_fits {s : State} {body : Bytes → CmdResult} {u : Option Engine} {o : Option Bytes}
    (h : withPayload s body = .success u o) : ∃ p, p.length ≤ s.inCap ∧ body p = .success u o := by
  obtain ⟨hcap, h⟩ := requireCapacity_success h
  obtain ⟨p, hlen, -, h⟩ := withInput_success h
  exact ⟨p, hlen.trans_le hcap, h⟩

theorem emit_success_output {r : Except CmdError Bytes} {u : Option Engine} {out : Bytes} (h : emit r = .success u (some out)) :
    r = .ok out := by
  cases r <;> cases h
  rfl

theorem cipherBody_output {f : Mode → List Word → Bytes → Bytes → Except CmdError Bytes} {s : State} {u : Option Engine} {out : Bytes}
    (h : cipherBody f s = .success u (some out)) :
    s.cfg = .configured ∧ ∃ p, p.length ≤ s.inCap ∧ f s.mode s.rk s.iv p = .ok out := by
  obtain ⟨hcfg, h⟩ := requireConfigured_success h
  obtain ⟨p, hp, h⟩ := withPayload_success_fits h
  exact ⟨hcfg, p, hp, emit_success_output h⟩

theorem blockBody_output {f : List Word → Bytes → Bytes} {s : State} {u : Option Engine} {out : Bytes}
    (h : blockBody f s = .success u (some out)) : ∃ b, out = f s.rk b := by
  obtain ⟨-, h⟩ := requireConfigured_success h
  obtain ⟨-, h⟩ := requireOneBlock_success h
  obtain ⟨b, -, -, h⟩ := withInput_success h
  cases h
  exact ⟨b, rfl⟩

theorem configBody_no_output {mode : Option Nat} {klen ivlen : Nat} {s : State} (u : Option Engine) (out : Bytes) :
    configBody mode klen ivlen s ≠ .success u (some out) := by
  intro h
  obtain ⟨e, he, -⟩ | ⟨m, hm⟩ := configBody_cases mode klen ivlen s
  · rw [he] at h
    cases h
  · rw [hm] at h
    obtain ⟨key, -, -, h⟩ := withInput_success h
    obtain ⟨iv, -, -, h⟩ := withInput_success h
    cases h

theorem pad_length_le (p : Bytes) : (pad p).length ≤ p.length + 16 := by
  rw [pad_length_eq]
  omega

theorem unpad_length_le {q p : Bytes} (h : unpad q = .ok p) : p.length ≤ q.length := by
  rw [← pad_of_unpad h, pad_length]
  omega

theorem modeEncrypt_length_bounds (m : Mode) (rk : List Word) (iv p : Bytes) :
    p.length ≤ (modeEncrypt m rk iv p).length ∧ (modeEncrypt m rk iv p).length ≤ p.length + 16 := by
  obtain ⟨hecb, hcbc, hcfb, hofb⟩ := ciphertextLengths rk iv p
  cases m <;> omega

theorem encryptVerified_output {m : Mode} {rk : List Word} {iv p out : Bytes} (h : encryptVerified m rk iv p = .ok out) :
    out = modeEncrypt m rk iv p := by
  unfold encryptVerified at h
  split at h
  · cases h
  · split_ifs at h
    cases h
    rfl

/-- DATA_OUT has room for every output: at most one block more than the payload (00_scope.md R11). -/
theorem resultOf_output_fits {i : Instr} {s : State} {u : Option Engine} {out : Bytes} (hs : s.EngineOk)
    (h : resultOf i s = .success u (some out)) : out.length ≤ s.inCap + 16 := by
  cases i <;> dsimp only [resultOf] at h
  case nop | clear => cases h
  case config | configDefault => exact absurd h (configBody_no_output u out)
  case encrypt =>
    obtain ⟨-, p, hp, hout⟩ := cipherBody_output h
    cases hout
    have := (modeEncrypt_length_bounds s.mode s.rk s.iv p).2
    omega
  case encryptVerified =>
    obtain ⟨-, p, hp, hout⟩ := cipherBody_output h
    have := (modeEncrypt_length_bounds s.mode s.rk s.iv p).2
    rw [encryptVerified_output hout]
    omega
  case decrypt =>
    obtain ⟨hcfg, c, hc, hout⟩ := cipherBody_output h
    obtain ⟨-, -, hiv⟩ := hs.1 hcfg
    have := (modeEncrypt_length_bounds s.mode s.rk s.iv out).1
    rw [modeEncrypt_of_modeDecrypt hiv hout] at this
    omega
  case blockEnc | blockDec =>
    obtain ⟨b, rfl⟩ := blockBody_output h
    exact Nat.le_add_left 16 s.inCap
  case pad =>
    obtain ⟨p, hp, h⟩ := withPayload_success_fits h
    cases h
    have := pad_length_le p
    omega
  case unpad =>
    obtain ⟨q, hq, h⟩ := withPayload_success_fits h
    have := unpad_length_le (emit_success_output h)
    omega

/-! ### The updates that a host access is made of -/

/-- A property that every update keeps which a host access is made of: the response lines, the draw counter, IGN, IN_LEN, a DATA_IN cell below
IN_CAP, and acceptance (20_memory.md R46 to R51; 40_command_execution.md R73, R74). -/
structure AccessKeeps (P : State → Prop) : Prop where
  respond : ∀ r t, P t → P (t.respond r)
  withDraws : ∀ n t, P t → P (t.withDraws n)
  dropWrite : ∀ t, P t → P t.dropWrite
  setInLen : ∀ w t, P t → P (t.setInLen w)
  storeIn : ∀ k v t, k < t.inCap → P t → P (t.storeIn k v)
  accept : ∀ w t, P t → P (t.accept w)

namespace AccessKeeps
variable {P : State → Prop} (hP : AccessKeeps P) {s : State}
include hP

theorem writeLane (hs : P s) (off : Nat) (v : Byte) : P (s.writeLane off v) := by
  obtain ⟨-, h⟩ | ⟨k, -, -, h⟩ | ⟨k, hk, -, h⟩ := State.writeLane_cases off v s <;> rw [h]
  · exact hs
  · exact hP.dropWrite s hs
  · exact hP.storeIn k v s (State.inIndex_eq_some hk).1 hs

theorem writeLanes (hs : P s) (off : Nat) (vs : Bytes) : P (s.writeLanes off vs) := by
  induction vs generalizing off s with
  | nil => exact hs
  | cons v vs ih => exact ih (hP.writeLane hs off v) (off + 1)

theorem writeRegister (hs : P s) (off : Nat) (w : Word) : P (s.writeRegister off w) := by
  obtain h | ⟨-, h⟩ | ⟨-, -, h⟩ | ⟨-, -, h⟩ := State.writeRegister_cases off w s <;> rw [h]
  · exact hs
  · exact hP.dropWrite s hs
  · exact hP.accept w s hs
  · exact hP.setInLen w s hs

theorem writeAccess (hs : P s) (width off : Nat) (w : Word) : P (s.writeAccess width off w) := by
  unfold State.writeAccess
  split_ifs
  · exact hP.writeLane hs off _
  · exact hP.writeRegister hs off w
  · exact hP.writeLanes hs off _

theorem access (hs : P s) (a : Access) : P (s.access a) := by
  by_cases hlegal : a.legal = true
  · cases hdir : a.dir with
    | read =>
      obtain ⟨n, r, h⟩ := State.readAccess_frame a.width a.off.toNat s
      rw [s.access_read hlegal hdir, h]
      exact hP.respond r _ (hP.withDraws n s hs)
    | write =>
      rw [s.access_write hlegal hdir]
      exact hP.respond _ _ (hP.writeAccess hs _ _ _)
  · rw [s.access_illegal hlegal]
    exact hP.respond _ s hs

end AccessKeeps

theorem State.hostStep_line {s : State} {l : HostLine} (h : s.host.prog[s.host.line]? = some l) : s.hostStep = s.runLine l := by
  rw [State.hostStep, h]

theorem State.hostStep_ended {s : State} (h : s.host.prog[s.host.line]? = none) : s.hostStep = s := by
  rw [State.hostStep, h]

theorem State.runLine_access (s : State) (a : Access) (bind : Option Nat) :
    s.runLine (.access a bind) = (s.access a).withHost ((s.host.bindResponse bind (s.access a).resp).goto (s.host.line + 1)) := by
  simp only [State.runLine, State.access_host]

/-- Everything a host's turn can do: an access of its next line with the host agent moved on, a branch, or nothing at the program's end (R70). -/
theorem State.hostStep_cases (s : State) :
    (∃ a bind, s.host.prog[s.host.line]? = some (.access a bind) ∧
      s.hostStep = (s.access a).withHost ((s.host.bindResponse bind (s.access a).resp).goto (s.host.line + 1))) ∨
    (∃ name mask target, s.host.prog[s.host.line]? = some (.bnz name mask target) ∧
      s.hostStep = s.withHost (s.host.goto (if s.host.var name &&& mask ≠ 0 then target else s.host.line + 1))) ∨
    (s.host.prog[s.host.line]? = none ∧ s.hostStep = s) := by
  cases hline : s.host.prog[s.host.line]? with
  | none => exact .inr (.inr ⟨rfl, State.hostStep_ended hline⟩)
  | some l =>
    have hstep := State.hostStep_line hline
    cases l with
    | access a bind => exact .inl ⟨a, bind, rfl, hstep.trans (s.runLine_access a bind)⟩
    | bnz name mask target => exact .inr (.inl ⟨name, mask, target, rfl, hstep⟩)

/-! ### Updates that keep the invariant -/

namespace State.Inv
variable {s : State}

theorem resetWith {cap : Nat} (hcap : inCapLegal cap = true) : (State.resetWith cap).Inv where
  capacity := hcap
  engine := State.resetWith_engineOk cap
  memory := ⟨Memory.nil_wf _, Memory.nil_wf _⟩
  bounds := ⟨fun _ _ => rfl, fun _ _ => rfl, Nat.zero_le _⟩
  status := ⟨nofun, nofun, fun _ => rfl, Nat.zero_le _, fun _ => rfl⟩
  busy := nofun
  vars := List.Pairwise.nil

theorem assertReset (hs : s.Inv) : s.assertReset.Inv :=
  { resetWith hs.capacity with vars := hs.vars }

theorem endTurn (hs : s.Inv) : s.endTurn.Inv := { hs with }
theorem respond (hs : s.Inv) (r : Response) : (s.respond r).Inv := { hs with }
theorem withDraws (hs : s.Inv) (n : Nat) : (s.withDraws n).Inv := { hs with }
theorem dropWrite (hs : s.Inv) : s.dropWrite.Inv := { hs with }
theorem setInLen (hs : s.Inv) (w : Word) : (s.setInLen w).Inv := { hs with }

theorem withHost (hs : s.Inv) {h : HostAgent} (hvars : keysRise h.vars) : (s.withHost h).Inv := { hs with vars := hvars }

theorem withEngine (hs : s.Inv) {e : Engine} (he : (s.withEngine e).EngineOk) : (s.withEngine e).Inv := { hs with engine := he }

/-- Acceptance sets the values that hold while BUSY. -/
theorem accept (hs : s.Inv) (w : Word) : (s.accept w).Inv where
  capacity := hs.capacity
  engine := hs.engine
  memory := ⟨hs.memory.1, Memory.nil_wf _⟩
  bounds := ⟨hs.bounds.1, fun _ _ => rfl, Nat.zero_le _⟩
  status := ⟨nofun, nofun, fun _ => rfl, Nat.zero_le _, fun _ => rfl⟩
  busy := fun _ => ⟨rfl, rfl, rfl, rfl, rfl⟩
  vars := hs.vars

theorem storeIn (hs : s.Inv) {k : Nat} (hk : k < s.inCap) (v : Byte) : (s.storeIn k v).Inv :=
  { hs with
    memory := ⟨Memory.write_wf hs.memory.1 k v, hs.memory.2⟩
    bounds := ⟨fun x hx => (Memory.read_write_ne _ _ v (by rw [State.storeIn_inCap] at hx; omega)).trans (hs.bounds.1 x hx), hs.bounds.2⟩ }

/-- A failed command has written CODE and DETAIL of one of the six kinds; a busy core has no output to exclude them (R31). -/
theorem reportError (hs : s.Inv) (hb : s.busy = true) (e : CmdError) : (s.reportError e).Inv := by
  obtain ⟨-, -, hvalid, hlen, -⟩ := hs.busy hb
  have hkind : e.kind.code.toNat ≤ 6 ∧ e.kind.code ≠ 0 := by cases e.kind <;> decide
  exact { hs with
    status := ⟨nofun, fun h => Bool.false_ne_true (hvalid.symm.trans h.2), fun _ => hlen, hkind.1, fun h => absurd h hkind.2⟩
    busy := nofun }

theorem errFlag_busy (hs : s.Inv) (hb : s.busy = true) : s.errFlag = false := by
  obtain ⟨hcode, -⟩ := hs.busy hb
  simp [State.errFlag, hcode]

theorem finishPlain (hs : s.Inv) (hb : s.busy = true) : s.finishPlain.Inv := by
  obtain ⟨-, -, -, hcode⟩ := hs.status
  exact { hs with
    bounds := ⟨hs.bounds.1, fun k _ => hs.outByte_busy hb k, Nat.zero_le _⟩
    status := ⟨nofun, nofun, fun _ => rfl, hcode⟩
    busy := nofun }

/-- An output that fits leaves the bytes after it at their acceptance value 0. -/
theorem finishOutput (hs : s.Inv) (hb : s.busy = true) {out : Bytes} (hfits : out.length ≤ s.outCap) : (s.finishOutput out).Inv := by
  have hcap := (State.outCap_of_inCapLegal hs.capacity).2
  have hlen : (s.finishOutput out).outLen.toNat = out.length := by
    rw [State.finishOutput_outLen, BitVec.toNat_ofNat, Nat.mod_eq_of_lt (by omega)]
  obtain ⟨-, -, -, -, hbytes, -⟩ := s.finishOutput_gives out
  obtain ⟨-, -, -, hcode⟩ := hs.status
  exact { hs with
    memory := ⟨hs.memory.1, Memory.writeBytes_wf out hs.memory.2 0⟩
    bounds := ⟨hs.bounds.1, fun k hk => (hbytes k (hlen ▸ hk)).trans (hs.outByte_busy hb k), hlen.trans_le hfits⟩
    status := ⟨nofun, fun h => Bool.false_ne_true ((hs.errFlag_busy hb).symm.trans h.1), nofun, hcode⟩
    busy := nofun }

/-! ### Steps that keep the invariant -/

theorem exec (hs : s.Inv) (hb : s.busy = true) {i : Instr} {t : State} (h : exec i s = .next t) : t.Inv := by
  rw [exec_eq_complete] at h
  have hupdate {upd out} (hr : resultOf i s = .success upd out) : (s.applyUpdate upd).Inv ∧ (s.applyUpdate upd).busy = true := by
    cases upd with
    | none => exact ⟨hs, hb⟩
    | some e => exact ⟨hs.withEngine (resultOf_engineUpdate hr).engineOk, hb⟩
  obtain ⟨upd, hr, rfl⟩ | ⟨upd, out, hr, rfl⟩ | ⟨e, -, rfl⟩ := complete_cases h
  · exact (hupdate hr).1.finishPlain (hupdate hr).2
  · have hfits := resultOf_output_fits hs.engine hr
    refine (hupdate hr).1.finishOutput (hupdate hr).2 ?_
    cases upd <;> exact hfits
  · exact hs.reportError hb e

theorem completion (hs : s.Inv) (hb : s.busy = true) {t : State} (h : completion s = .next t) : t.Inv := by
  obtain ⟨i, -, heq⟩ | ⟨r, -, heq⟩ := completion_cases s
  · exact hs.exec hb (heq ▸ h)
  · rw [heq] at h
    cases h
    exact hs.reportError hb _

theorem accessKeeps : AccessKeeps State.Inv where
  respond r _ h := h.respond r
  withDraws n _ h := h.withDraws n
  dropWrite _ h := h.dropWrite
  setInLen w _ h := h.setInLen w
  storeIn _ v _ hk h := h.storeIn hk v
  accept w _ h := h.accept w

theorem access (hs : s.Inv) (a : Access) : (s.access a).Inv := accessKeeps.access hs a

end State.Inv

/-- A bound variable is listed in its place. -/
theorem HostAgent.bindResponse_keysRise {h : HostAgent} (hvars : keysRise h.vars) (bind : Option Nat) (r : Option Response) :
    keysRise (h.bindResponse bind r).vars := by
  obtain heq | ⟨name, w, -, heq⟩ := h.bindResponse_cases bind r <;> rw [heq]
  · exact hvars
  · exact insertCell_keysRise hvars name w

theorem State.Inv.hostStep {s : State} (hs : s.Inv) : s.hostStep.Inv := by
  obtain ⟨a, bind, -, h⟩ | ⟨name, mask, target, -, h⟩ | ⟨-, h⟩ := s.hostStep_cases <;> rw [h]
  · exact (hs.access a).withHost (HostAgent.bindResponse_keysRise hs.vars bind _)
  · exact hs.withHost hs.vars
  · exact hs

theorem step_keeps_inv {s t : State} (hs : s.Inv) (h : step s = .next t) : t.Inv := by
  obtain ⟨-, hb, hc⟩ | ⟨-, -, rfl⟩ | ⟨-, rfl⟩ | ⟨-, rfl⟩ := step_cases h
  · exact hs.endTurn.completion hb hc
  · exact hs.endTurn
  · exact hs.endTurn.hostStep
  · exact hs.endTurn.assertReset

/-- Settles O54: reset establishes the invariant, and each agent's step is made of updates that keep it. -/
theorem invariantKept : Obligations.InvariantKept :=
  ⟨fun _ => State.Inv.resetWith, State.Inv.resetWith (by decide), fun _ _ => step_keeps_inv⟩

end Sys2Proof.Machine

/-! Steps (40_command_execution.md R72, R75, R76), the faults (60_exceptions.md R129, R132) and what no step but reset does
(10_state.md R22; 70_reset_and_hazards.md sections 1 and 4). -/

namespace Sys2Proof.Machine

/-! ### The step of each agent -/

theorem step_core_busy {s : State} (hturn : s.nextTurn = .core) (hb : s.busy = true) : step s = completion s.endTurn := by
  rw [step, hturn, stepOf, coreStep, State.endTurn_busy, if_pos hb]

theorem step_core_idle {s : State} (hturn : s.nextTurn = .core) (hb : s.busy = false) : step s = .next s.endTurn := by
  rw [step, hturn, stepOf, coreStep, State.endTurn_busy, hb, if_neg Bool.false_ne_true]

theorem step_host {s : State} (hturn : s.nextTurn = .host) : step s = .next s.endTurn.hostStep := by
  rw [step, hturn, stepOf]

theorem step_reset {s : State} (hturn : s.nextTurn = .reset) : step s = .next s.endTurn.assertReset := by
  rw [step, hturn, stepOf]

/-- Only the completion of a busy core can end otherwise than in a next state. -/
theorem step_completion_or_next (s : State) :
    (s.nextTurn = .core ∧ s.busy = true ∧ step s = completion s.endTurn) ∨ ∃ t, step s = .next t := by
  cases hturn : s.nextTurn with
  | core =>
    cases hb : s.busy with
    | true => exact .inl ⟨rfl, rfl, step_core_busy hturn hb⟩
    | false => exact .inr ⟨_, step_core_idle hturn hb⟩
  | host => exact .inr ⟨_, step_host hturn⟩
  | reset => exact .inr ⟨_, step_reset hturn⟩

theorem completion_of_instr {s : State} {i : Instr} (h : decode s.pend = .instr i) : completion s = exec i s := by
  rw [completion, h]

theorem completion_of_illegal {s : State} {r : IllegalReason} (h : decode s.pend = .illegal r) :
    completion s = .next (s.reportError (illegalCommand r)) := by
  rw [completion, h]
  rfl

/-- Settles O5: the core's turn of a busy core is the completion of PEND. -/
theorem stepRunsDecodedCommand : Obligations.StepRunsDecodedCommand := fun s _ hturn hb hdec =>
  (step_core_busy hturn hb).trans (completion_of_instr (s := s.endTurn) hdec)

theorem State.withFetchWord_eq (s : State) (w : Word) : s.withFetchWord 32 w.toNat = s.placeCommand w := by
  rw [State.withFetchWord, Nat.mod_eq_of_lt w.isLt, BitVec.ofNat_toNat, BitVec.setWidth_eq]

/-- Settles O6: the word placed decodes to its command (O1), and using up the turn placed with it leaves the accepted state. -/
theorem placedCommandRuns : Obligations.PlacedCommandRuns := by
  intro s i hwf
  rw [State.withFetchWord_eq]
  exact stepRunsDecodedCommand (s.placeCommand (encode i)) i rfl rfl (decodeOfEncode i hwf)

/-- Settles O7: the completion reports ILLEGAL_COMMAND with the decoder's reason. -/
theorem illegalWordCompletes : Obligations.IllegalWordCompletes := by
  intro s r hturn hb hdec
  refine ⟨s.endTurn.reportError (illegalCommand r), ?_, ?_⟩
  · exact (step_core_busy hturn hb).trans (completion_of_illegal (s := s.endTurn) hdec)
  · have hrep := s.endTurn.reportError_reports (illegalCommand r)
    cases r <;> exact hrep

theorem step_host_ended {s : State} (hturn : s.nextTurn = .host) (h : s.host.prog[s.host.line]? = none) : step s = .next s.endTurn := by
  rw [step_host hturn, State.hostStep_ended (s := s.endTurn) h]

/-- Settles O8: an idle core and a host at its program's end leave the state with the turn used up. -/
theorem idleMachineStays : Obligations.IdleMachineStays :=
  ⟨fun _ => step_core_idle, fun _ => step_host_ended, step_host_ended (s := State.reset) rfl rfl⟩

theorem State.statusWord_assertReset (s : State) : s.assertReset.statusWord = 0 := by
  have hreset : s.assertReset.statusWord = State.reset.statusWord := rfl
  rw [hreset]
  decide

/-- Settles O10: the state after the turn is `State.resetWith` with the agents around the core as before. -/
theorem resetEffects : Obligations.ResetEffects := fun s hturn =>
  ⟨s.endTurn.assertReset, step_reset hturn, rfl, rfl, rfl, rfl, rfl, rfl, rfl, rfl, rfl, rfl, rfl, rfl, rfl, rfl, fun _ => rfl, fun _ => rfl,
    s.endTurn.statusWord_assertReset, State.errorWord_eq_zero rfl rfl, rfl⟩

/-! ### The host's lines (30_encoding.md R70) -/

theorem step_host_access {s : State} {a : Access} {bind : Option Nat} (hturn : s.nextTurn = .host)
    (hline : s.host.prog[s.host.line]? = some (.access a bind)) :
    step s = .next ((s.endTurn.access a).withHost
      ((s.host.bindResponse bind (s.endTurn.access a).resp).goto (s.host.line + 1))) := by
  rw [step_host hturn, State.hostStep_line (s := s.endTurn) hline, State.runLine_access]
  rfl

theorem step_host_bnz {s : State} {name target : Nat} {mask : Word} (hturn : s.nextTurn = .host)
    (hline : s.host.prog[s.host.line]? = some (.bnz name mask target)) :
    step s = .next (s.endTurn.withHost (s.host.goto (if s.host.var name &&& mask ≠ 0 then target else s.host.line + 1))) := by
  rw [step_host hturn, State.hostStep_line (s := s.endTurn) hline]
  rfl

/-- Binding a response touches the variables only. -/
theorem HostAgent.bindResponse_frame (h : HostAgent) (bind : Option Nat) (r : Option Response) :
    h.bindResponse bind r = { h with vars := (h.bindResponse bind r).vars } := by
  obtain heq | ⟨name, w, -, heq⟩ := h.bindResponse_cases bind r <;> rw [heq]
  rfl

/-- The data of a read, a byte zero-extended, is what the named variable is bound to, and no other variable changes. -/
theorem HostAgent.lookup_bindResponse (h : HostAgent) {name : Nat} {w : Word} {r : Option Response}
    (hr : r = some (.okRead32 w) ∨ ∃ b : Byte, r = some (.okRead8 b) ∧ w = b.setWidth 32) :
    lookup (h.bindResponse (some name) r).vars name = some w ∧
      ∀ x, x ≠ name → lookup (h.bindResponse (some name) r).vars x = lookup h.vars x := by
  have hbind : h.bindResponse (some name) r = h.bindVar name w := by
    obtain rfl | ⟨b, rfl, rfl⟩ := hr <;> rfl
  rw [hbind]
  exact ⟨lookup_insertCell_self h.vars name w, fun x hx => lookup_insertCell_ne h.vars w hx⟩

/-- Settles O9: the line's effect is the access with the host agent moved on and its response bound, or the branch. -/
theorem hostLineRuns : Obligations.HostLineRuns := by
  refine ⟨fun s a bind hturn hline => ?access, fun s name mask target hturn hline => ?bnz⟩
  case access =>
    refine ⟨_, step_host_access hturn hline, rfl, ?_, ?_, fun hnone => ?_⟩
    · rw [State.withHost_host, HostAgent.bindResponse_frame]
      rfl
    · rintro name w rfl hr
      exact s.host.lookup_bindResponse hr
    · have hvars := s.host.bindResponse_nothing (r := (s.endTurn.access a).resp) hnone
      show (s.host.bindResponse bind (s.endTurn.access a).resp).vars = s.host.vars
      rw [hvars]
  case bnz =>
    exact ⟨_, step_host_bnz hturn hline, rfl, fun h => if_pos h, fun h => if_neg (not_not.2 h)⟩

/-! ### Faults -/

theorem withInput_modelFault {s : State} {k n : Nat} {body : Bytes → CmdResult} (h : withInput s k n body = .modelFault) :
    (∃ j < n, s.inByte (k + j) = none) ∨ ∃ v, body v = .modelFault := by
  obtain ⟨v, -, -, heq⟩ | ⟨hnone, -⟩ := withInput_cases s k n body
  · exact .inr ⟨v, heq ▸ h⟩
  · exact .inl hnone

theorem requireConfigured_modelFault {s : State} {body : CmdResult} (h : requireConfigured s body = .modelFault) : body = .modelFault := by
  unfold requireConfigured at h
  split_ifs at h
  exact h

theorem requireOneBlock_modelFault {s : State} {body : CmdResult} (h : requireOneBlock s body = .modelFault) : body = .modelFault := by
  unfold requireOneBlock at h
  split_ifs at h
  exact h

theorem requireCapacity_modelFault {s : State} {body : CmdResult} (h : requireCapacity s body = .modelFault) : body = .modelFault := by
  unfold requireCapacity at h
  split_ifs at h
  exact h

theorem withPayload_modelFault {s : State} {body : Bytes → CmdResult} (hbody : ∀ p, body p ≠ .modelFault)
    (h : withPayload s body = .modelFault) : ∃ k < s.inLen.toNat, s.inByte k = none := by
  obtain hnone | ⟨p, hp⟩ := withInput_modelFault (requireCapacity_modelFault h)
  · simpa using hnone
  · exact absurd hp (hbody p)

theorem emit_ne_modelFault (r : Except CmdError Bytes) : emit r ≠ .modelFault := by cases r <;> nofun

theorem configBody_modelFault {mode : Option Nat} {klen ivlen : Nat} {s : State} (h : configBody mode klen ivlen s = .modelFault) :
    ∃ k < 32, s.inByte k = none := by
  obtain ⟨e, he, -⟩ | ⟨m, hm⟩ := configBody_cases mode klen ivlen s
  · rw [he] at h
    cases h
  · rw [hm] at h
    obtain ⟨j, hj, hnone⟩ | ⟨key, h⟩ := withInput_modelFault h
    · exact ⟨0 + j, by omega, hnone⟩
    · obtain ⟨j, hj, hnone⟩ | ⟨iv, h⟩ := withInput_modelFault h
      · exact ⟨16 + j, by omega, hnone⟩
      · cases h

theorem cipherBody_modelFault {f : Mode → List Word → Bytes → Bytes → Except CmdError Bytes} {s : State}
    (h : cipherBody f s = .modelFault) : ∃ k < s.inLen.toNat, s.inByte k = none :=
  withPayload_modelFault (fun _ => emit_ne_modelFault _) (requireConfigured_modelFault h)

theorem blockBody_modelFault {f : List Word → Bytes → Bytes} {s : State} (h : blockBody f s = .modelFault) :
    ∃ k < 16, s.inByte k = none := by
  obtain hnone | ⟨b, hb⟩ := withInput_modelFault (requireOneBlock_modelFault (requireConfigured_modelFault h))
  · simpa using hnone
  · cases hb

/-- A command takes the model fault only for a ⊥ cell among the bytes it may read (60_exceptions.md R132; 70_reset_and_hazards.md R145). -/
theorem resultOf_modelFault {i : Instr} {s : State} (h : resultOf i s = .modelFault) : ∃ k < inputBytes i s, s.inByte k = none := by
  cases i <;> dsimp only [resultOf] at h
  case nop | clear => cases h
  case config | configDefault => exact configBody_modelFault h
  case encrypt | decrypt | encryptVerified => exact cipherBody_modelFault h
  case blockEnc | blockDec => exact blockBody_modelFault h
  case pad => exact withPayload_modelFault (body := fun p => .success none (some (pad p))) (fun _ => nofun) h
  case unpad => exact withPayload_modelFault (fun _ => emit_ne_modelFault _) h

/-- Completing a result ends the command, unless it is the model fault. -/
theorem complete_ends (r : CmdResult) (s : State) : (∃ t, complete r s = .next t ∧ Ended t) ∨ r = .modelFault := by
  match r with
  | .success _ none => exact .inl ⟨_, rfl, rfl, rfl⟩
  | .success _ (some _) => exact .inl ⟨_, rfl, rfl, rfl⟩
  | .failure _ => exact .inl ⟨_, rfl, rfl, rfl⟩
  | .modelFault => exact .inr rfl

theorem exec_ends (i : Instr) (s : State) : (∃ t, exec i s = .next t ∧ Ended t) ∨ resultOf i s = .modelFault := by
  rw [exec_eq_complete]
  exact complete_ends _ s

/-- Settles O15: a command that does not end has taken the model fault, so a byte it may read is ⊥. -/
theorem everyCommandEnds : Obligations.EveryCommandEnds := by
  intro i s hwritten
  refine (exec_ends i s).resolve_right fun hfault => ?_
  obtain ⟨k, hk, hnone⟩ := resultOf_modelFault hfault
  exact hwritten k hk hnone

/-- Settles O13: a fault is of a completion, whose result is the model fault. -/
theorem onlyUnwrittenInputFaults : Obligations.OnlyUnwrittenInputFaults := by
  intro s f h
  obtain ⟨hturn, hb, hstep⟩ | ⟨t, hstep⟩ := step_completion_or_next s
  · rw [hstep] at h
    obtain ⟨i, hdec, heq⟩ | ⟨r, -, heq⟩ := completion_cases s.endTurn
    · rw [heq, exec_eq_complete] at h
      obtain ⟨hfault, hf⟩ := complete_fault h
      exact ⟨hf, hturn, hb, i, hdec, resultOf_modelFault hfault⟩
    · rw [heq] at h
      cases h
  · rw [hstep] at h
    cases h

/-- Settles O16: a completion is a command's meaning or a reported error, and neither refuses. -/
theorem noStepRefuses : Obligations.NoStepRefuses := by
  intro s r h
  obtain ⟨-, -, hstep⟩ | ⟨t, hstep⟩ := step_completion_or_next s
  · rw [hstep] at h
    obtain ⟨i, -, heq⟩ | ⟨e, -, heq⟩ := completion_cases s.endTurn
    · exact exec_ne_refused i _ r (heq ▸ h)
    · rw [heq] at h
      cases h
  · rw [hstep] at h
    cases h

/-! ### Only reset unwrites DATA_IN -/

/-- Every cell of DATA_IN that is written in `s` is written in `t`. -/
def WrittenKept (s t : State) : Prop := ∀ k, s.inByte k ≠ none → t.inByte k ≠ none

theorem WrittenKept.storeIn {s t : State} (h : WrittenKept s t) (k : Nat) (v : Byte) : WrittenKept s (t.storeIn k v) := by
  intro x hx
  by_cases hxk : x = k
  · subst hxk
    rw [State.inByte, State.storeIn_dataIn, Memory.read_write_self]
    nofun
  · rw [State.inByte, State.storeIn_dataIn, Memory.read_write_ne _ _ _ hxk]
    exact h x hx

theorem writtenKept_accessKeeps (s : State) : AccessKeeps (WrittenKept s) where
  respond _ _ h := h
  withDraws _ _ h := h
  dropWrite _ h := h
  setInLen _ _ h := h
  storeIn k v _ _ h := h.storeIn k v
  accept _ _ h := h

theorem State.hostStep_writtenKept (s : State) : WrittenKept s s.hostStep := by
  obtain ⟨a, bind, -, h⟩ | ⟨name, mask, target, -, h⟩ | ⟨-, h⟩ := s.hostStep_cases <;> rw [h]
  · exact (writtenKept_accessKeeps s).access (fun _ => id) a
  · exact fun _ => id
  · exact fun _ => id

theorem complete_dataIn {r : CmdResult} {s t : State} (h : complete r s = .next t) : t.dataIn = s.dataIn := by
  obtain ⟨upd, -, rfl⟩ | ⟨upd, out, -, rfl⟩ | ⟨e, -, rfl⟩ := complete_cases h
  · cases upd <;> rfl
  · cases upd <;> rfl
  · rfl

theorem completion_eq_complete (s : State) : ∃ r, completion s = complete r s := by
  unfold completion
  split
  next i _ => exact ⟨resultOf i s, exec_eq_complete i s⟩
  next r _ => exact ⟨_, rfl⟩

/-- Settles O11: a completion leaves DATA_IN alone, and a host access stores bytes only. -/
theorem onlyResetUnwritesInput : Obligations.OnlyResetUnwritesInput := by
  intro s t h hturn
  show WrittenKept s t
  obtain ⟨-, -, hc⟩ | ⟨-, -, rfl⟩ | ⟨-, rfl⟩ | ⟨hreset, -⟩ := step_cases h
  · obtain ⟨r, hr⟩ := completion_eq_complete s.endTurn
    rw [hr] at hc
    have hdata : t.dataIn = s.dataIn := complete_dataIn (s := s.endTurn) hc
    intro k hk
    rwa [State.inByte, hdata]
  · exact fun _ => id
  · exact s.endTurn.hostStep_writtenKept
  · exact absurd hreset hturn

/-! ### A busy core completes -/

theorem turns_accessKeeps (l : List Turn) : AccessKeeps (fun t => t.turns = l) where
  respond _ _ h := h
  withDraws _ _ h := h
  dropWrite _ h := h
  setInLen _ _ h := h
  storeIn _ _ _ _ h := h
  accept _ _ h := h

theorem State.hostStep_turns (s : State) : s.hostStep.turns = s.turns := by
  obtain ⟨a, bind, -, h⟩ | ⟨name, mask, target, -, h⟩ | ⟨-, h⟩ := s.hostStep_cases <;> rw [h]
  · exact (turns_accessKeeps s.turns).access rfl a
  · rfl

/-- The completion of a command ends it or is the model fault. -/
theorem completion_ends (s : State) : (∃ t, completion s = .next t ∧ Ended t) ∨ ∃ f, completion s = .fault f := by
  obtain ⟨r, hr⟩ := completion_eq_complete s
  rw [hr]
  refine (complete_ends r s).imp_right fun h => ?_
  rw [h]
  exact ⟨_, rfl⟩

/-- From `s` the machine comes within `n` steps to BUSY = 0 or to a fault. -/
def CompletesWithin (n : Nat) (s : State) : Prop :=
  ∃ k ≤ n, (∃ t, Host.Core.run core k s = .next t ∧ t.busy = false) ∨ ∃ f, Host.Core.run core k s = .fault f

theorem run_succ_of_next {M : Host.Core} {s t : M.State} (h : M.step s = .next t) (k : Nat) : M.run (k + 1) s = M.run k t := by
  rw [Host.Core.run, h]

theorem run_one_of_fault {M : Host.Core} {s : M.State} {f : M.Fault} (h : M.step s = .fault f) : M.run 1 s = .fault f := by
  rw [Host.Core.run, h]

theorem CompletesWithin.idle {s : State} (n : Nat) (hb : s.busy = false) : CompletesWithin n s := ⟨0, n.zero_le, .inl ⟨s, rfl, hb⟩⟩

theorem CompletesWithin.next {s t : State} {n : Nat} (h : step s = .next t) (ht : CompletesWithin n t) : CompletesWithin (n + 1) s := by
  obtain ⟨k, hk, hend⟩ := ht
  refine ⟨k + 1, Nat.succ_le_succ hk, ?_⟩
  rwa [run_succ_of_next (M := core) h k]

theorem CompletesWithin.of_completion {s : State} (n : Nat) (h : step s = completion s.endTurn) : CompletesWithin (n + 1) s := by
  obtain ⟨t, ht, hend, -⟩ | ⟨f, hf⟩ := completion_ends s.endTurn
  · exact .next (h.trans ht) (.idle n hend)
  · exact ⟨1, Nat.le_add_left 1 n, .inr ⟨f, run_one_of_fault (M := core) (h.trans hf)⟩⟩

/-- Settles O12, by induction on the turns listed: each is the core's, which ends the command, or leaves a list one shorter; after the last one it is
the busy core's turn. -/
theorem busyCoreCompletes : Obligations.BusyCoreCompletes := by
  intro s hb
  show CompletesWithin (s.turns.length + 1) s
  generalize hl : s.turns = l
  induction l generalizing s with
  | nil => exact .of_completion 0 (step_core_busy (by simp [State.nextTurn, hl, hb]) hb)
  | cons turn l ih =>
    have hturn : s.nextTurn = turn := by rw [State.nextTurn, hl]
    cases turn with
    | core => exact .of_completion _ (step_core_busy hturn hb)
    | reset => exact .next (step_reset hturn) (.idle _ rfl)
    | host =>
      refine .next (step_host hturn) ?_
      cases hb' : s.endTurn.hostStep.busy with
      | false => exact .idle _ hb'
      | true => exact ih _ hb' (by rw [State.hostStep_turns, State.endTurn_turns, hl, List.tail_cons])

/-! ### The engine is immutable (R22) -/

/-- Settles O56: an engine update is CLEAR's, or that of a CONFIG of an unconfigured core. -/
theorem engineImmutable : Obligations.EngineImmutable := by
  intro s t h
  obtain hsame | ⟨hreset, -⟩ | ⟨hturn, hb, i, e, hdec, hupd, herr, hcfg, -⟩ := step_engine_cases h
  · exact .inl hsame
  · exact .inr (.inl hreset)
  · refine .inr (.inr ⟨hturn, hb, i, hdec, ?_⟩)
    obtain ⟨hi, rfl⟩ | ⟨hi, hun, m, key, iv, -, -, rfl⟩ := hupd
    · exact .inr ⟨hi, hcfg⟩
    · exact .inl ⟨hi, hun, hcfg, herr⟩

end Sys2Proof.Machine

/-! The commands' results (40 to 45): what each body computes when its checks pass, and the first check that fails. -/

namespace Sys2Proof.Machine

/-! ### From a result to the next state (40_command_execution.md R75) -/

theorem gives_of_output {i : Instr} {s : State} {out : Bytes} (h : resultOf i s = .success none (some out)) :
    ∃ t, exec i s = .next t ∧ GivesOutput s t out :=
  ⟨s.finishOutput out, by rw [exec_eq_complete, h]; rfl, s.finishOutput_gives out⟩

theorem gives_of_engine {i : Instr} {s : State} {e : Engine} (h : resultOf i s = .success (some e) none) :
    ∃ t, exec i s = .next t ∧ GivesNothing s t ∧ t.cfg = e.cfg ∧ t.key = e.key ∧ t.iv = e.iv ∧ t.mode = e.mode ∧ t.rk = e.rk :=
  ⟨(s.withEngine e).finishPlain, by rw [exec_eq_complete, h]; rfl, (s.withEngine e).finishPlain_gives, rfl, rfl, rfl, rfl, rfl⟩

/-- Settles O17: NOP has no update and CLEAR that of the cleared engine. -/
theorem nopAndClearResults : Obligations.NopAndClearResults := fun s =>
  ⟨⟨s.finishPlain, rfl, s.finishPlain_gives, .refl s⟩, gives_of_engine (i := .clear) rfl⟩

/-! ### CONFIG (41_key_schedule.md R90) -/

theorem configBody_written {mode : Option Nat} {m : Mode} {s : State} {key iv : Bytes} (hcfg : s.cfg = .unconfigured)
    (hmode : modeOfCode (mode.getD 0) = some m) (hkey : s.BlockAt 0 key) (hiv : s.BlockAt 16 iv) :
    configBody mode 16 16 s = .success (some (newEngine m key iv)) none := by
  rw [configBody_reads hcfg hmode, withInput_some _ hkey.1 hkey.2, withInput_some _ hiv.1 hiv.2]

/-- Settles O18: with its checks passed CONFIG reads key and IV and creates the engine of the code's mode, ECB without one. -/
theorem configResult : Obligations.ConfigResult := by
  intro s m key iv hcfg hkey hiv
  refine ⟨?config, ?configDefault⟩
  case config =>
    have hgives := gives_of_engine (i := .config m.code.toNat 16 16)
      (configBody_written (mode := some m.code.toNat) hcfg (modeOfCode_code m) hkey hiv)
    cases m <;> exact hgives
  case configDefault =>
    exact gives_of_engine (i := .configDefault 16 16) (configBody_written (mode := none) (m := .ecb) hcfg rfl hkey hiv)

section ConfigChecks
variable {s : State} (hcfg : s.cfg = .unconfigured) (mode : Option Nat) {klen ivlen : Nat}
include hcfg

theorem configBody_keyMissing : configBody mode 0 ivlen s = .failure keyMissing := by simp [configBody, hcfg]

theorem configBody_keyLength (h0 : klen ≠ 0) (h16 : klen ≠ 16) : configBody mode klen ivlen s = .failure keyLength := by
  simp [configBody, hcfg, h0, h16]

theorem configBody_ivMissing : configBody mode 16 0 s = .failure ivMissing := by simp [configBody, hcfg]

theorem configBody_ivLength (h0 : ivlen ≠ 0) (h16 : ivlen ≠ 16) : configBody mode 16 ivlen s = .failure ivLength := by
  simp [configBody, hcfg, h0, h16]

theorem configBody_unsupportedMode {code : Nat} (h : modeOfCode code = none) :
    configBody (some code) 16 16 s = .failure (unsupportedMode code) := by
  simp [configBody, hcfg, h]

end ConfigChecks

/-- The unsupported codes (30_encoding.md R65). -/
theorem modeOfCode_eq_none {code : Nat} (h : 4 ≤ code) : modeOfCode code = none := by
  obtain ⟨n, rfl⟩ := Nat.exists_eq_add_of_le' h
  rfl

/-- A check that does not look at the mode fails both forms of CONFIG. -/
theorem config_failsWith {s : State} {klen ivlen : Nat} {e : CmdError} (h : ∀ mode, configBody mode klen ivlen s = .failure e) (mode : Nat) :
    FailsWith (.config mode klen ivlen) s e.kind.code e.detail ∧ FailsWith (.configDefault klen ivlen) s e.kind.code e.detail :=
  ⟨failsWith_of_failure (i := .config mode klen ivlen) (h (some mode)), failsWith_of_failure (i := .configDefault klen ivlen) (h none)⟩

/-- Settles O19: each clause's premises pass the checks before its own, which fails in either form of CONFIG. -/
theorem configErrors : Obligations.ConfigErrors := by
  intro s mode klen ivlen
  refine ⟨?keyMissing, ?keyLength, ?ivMissing, ?ivLength, ?unsupportedMode⟩
  case keyMissing =>
    rintro hcfg rfl
    exact config_failsWith (fun mode => configBody_keyMissing hcfg mode) mode
  case keyLength =>
    intro hcfg h0 h16
    exact config_failsWith (fun mode => configBody_keyLength hcfg mode h0 h16) mode
  case ivMissing =>
    rintro hcfg rfl rfl
    exact config_failsWith (fun mode => configBody_ivMissing hcfg mode) mode
  case ivLength =>
    rintro hcfg rfl h0 h16
    exact config_failsWith (fun mode => configBody_ivLength hcfg mode h0 h16) mode
  case unsupportedMode =>
    rintro hcfg rfl rfl hmode -
    exact failsWith_of_failure (i := .config mode 16 16) (configBody_unsupportedMode hcfg (modeOfCode_eq_none hmode))

/-- The operation of ENCRYPT, as the frame of the cipher commands takes it (44_mode_drivers.md R120). -/
def encryptOp (m : Mode) (rk : List Word) (iv p : Bytes) : Except CmdError Bytes := .ok (modeEncrypt m rk iv p)

theorem resultOf_encrypt (s : State) : resultOf .encrypt s = cipherBody encryptOp s := rfl

/-! ### Lengths (40_command_execution.md R78; 42_block_transform.md R97) -/

theorem withPayload_exceeds {s : State} (body : Bytes → CmdResult) (h : s.inCap < s.inLen.toNat) :
    withPayload s body = .failure exceedsCapacity :=
  requireCapacity_exceeds _ h

theorem cipherBody_exceeds (f : Mode → List Word → Bytes → Bytes → Except CmdError Bytes) {s : State} (hcfg : s.cfg = .configured)
    (h : s.inCap < s.inLen.toNat) : cipherBody f s = .failure exceedsCapacity := by
  rw [cipherBody, requireConfigured_configured _ hcfg, withPayload_exceeds _ h]

theorem blockBody_notOneBlock (f : List Word → Bytes → Bytes) {s : State} (hcfg : s.cfg = .configured) (h : s.inLen ≠ 16) :
    blockBody f s = .failure notOneBlock := by
  rw [blockBody, requireConfigured_configured _ hcfg, requireOneBlock_other _ h]

/-- Settles O21: the length check is the first of the payload, after the configuration check where the command has one. -/
theorem lengthErrors : Obligations.LengthErrors := by
  intro s
  refine ⟨fun h hcfg => ⟨?_, ?_, ?_⟩, fun h => ⟨?_, ?_⟩, fun h hcfg => ⟨?_, ?_⟩⟩
  · exact failsWith_of_failure (i := .encrypt) (cipherBody_exceeds encryptOp hcfg h)
  · exact failsWith_of_failure (i := .decrypt) (cipherBody_exceeds _ hcfg h)
  · exact failsWith_of_failure (i := .encryptVerified) (cipherBody_exceeds _ hcfg h)
  · exact failsWith_of_failure (i := .pad) (withPayload_exceeds _ h)
  · exact failsWith_of_failure (i := .unpad) (withPayload_exceeds _ h)
  · exact failsWith_of_failure (i := .blockEnc) (blockBody_notOneBlock _ hcfg h)
  · exact failsWith_of_failure (i := .blockDec) (blockBody_notOneBlock _ hcfg h)

/-! ### The cipher and block commands -/

theorem cipherBody_payload (f : Mode → List Word → Bytes → Bytes → Except CmdError Bytes) {s : State} {p : Bytes} (hcfg : s.cfg = .configured)
    (hcap : s.inLen.toNat ≤ s.inCap) (hp : s.Payload p) : cipherBody f s = emit (f s.mode s.rk s.iv p) := by
  rw [cipherBody, requireConfigured_configured _ hcfg, withPayload_payload _ hcap hp]

theorem blockBody_block (f : List Word → Bytes → Bytes) {s : State} {b : Bytes} (hcfg : s.cfg = .configured) (hlen : s.inLen = 16)
    (hb : s.BlockAt 0 b) : blockBody f s = .success none (some (f s.rk b)) := by
  rw [blockBody, requireConfigured_configured _ hcfg, requireOneBlock_block _ hlen, withInput_some _ hb.1 hb.2]

/-- Settles O22: the payload reaches the mode's encryption, which has no error. -/
theorem encryptResult : Obligations.EncryptResult := fun s _ hcfg hcap hp =>
  gives_of_output ((resultOf_encrypt s).trans (cipherBody_payload encryptOp hcfg hcap hp))

/-- Settles O23: the payload reaches the mode's decryption, whose plaintext is put out and whose error is reported. -/
theorem decryptResult : Obligations.DecryptResult := by
  intro s c hcfg hcap hp
  have hresult : resultOf .decrypt s = emit (modeDecrypt s.mode s.rk s.iv c) := cipherBody_payload modeDecrypt hcfg hcap hp
  refine ⟨fun p hdec => ?plaintext, fun e hdec => ?padding⟩
  case plaintext =>
    rw [hdec] at hresult
    exact gives_of_output hresult
  case padding =>
    rw [hdec] at hresult
    obtain ⟨hkind, hmode⟩ := modeDecrypt_error hdec
    have hfails := failsWith_of_failure hresult
    rw [hkind] at hfails
    exact ⟨hfails, hmode⟩

/-- Settles O24: with a 16-byte IV ENCRYPT_VERIFIED is ENCRYPT (R123). -/
theorem encryptVerifiedResult : Obligations.EncryptVerifiedResult := by
  intro s p hcfg hiv hcap hp
  rw [exec_encryptVerified_eq_encrypt hiv]
  exact encryptResult s p hcfg hcap hp

/-- Settles O25: the block reaches the transform under RK. -/
theorem blockCommandResults : Obligations.BlockCommandResults := fun _ _ hcfg hlen hb =>
  ⟨gives_of_output (i := .blockEnc) (blockBody_block blockEncrypt hcfg hlen hb),
    gives_of_output (i := .blockDec) (blockBody_block blockDecrypt hcfg hlen hb)⟩

/-! ### PAD and UNPAD (43_padding.md R99, R100) -/

/-- Settles O26: the payload reaches `pad`. -/
theorem padResult : Obligations.PadResult := fun s p hcap hp =>
  gives_of_output (i := .pad) (withPayload_payload (s := s) (p := p) (fun p => .success none (some (pad p))) hcap hp)

/-- The pad value: the sequence's last byte. -/
def padValueOf (q : Bytes) : Byte := byteAt q (q.length - 1)

/-- The bytes that the pad value says were appended are all the pad value. -/
def PadBytesMatch (q : Bytes) : Prop :=
  ∀ k, q.length - (padValueOf q).toNat ≤ k → k < q.length → (byteAt q k).toNat = (padValueOf q).toNat

theorem all_drop_iff {q : Bytes} {i : Nat} {v : Byte} :
    (q.drop i).all (fun b => b = v) = true ↔ ∀ k, i ≤ k → k < q.length → byteAt q k = v := by
  simp only [List.all_eq_true, decide_eq_true_eq, List.mem_drop_iff_getElem]
  constructor
  · intro h k hik hk
    refine (List.getD_eq_getElem q 0 hk).trans (h _ ⟨k - i, by omega, ?_⟩)
    simp [Nat.add_sub_cancel' hik]
  · rintro h _ ⟨j, hj, rfl⟩
    exact (List.getD_eq_getElem q 0 _).symm.trans (h (i + j) (Nat.le_add_right i j) (by omega))

theorem unpad_badLength {q : Bytes} (h : q.length = 0 ∨ q.length % 16 ≠ 0) : unpad q = .error paddingLength := by
  rw [unpad, if_pos (badBlockLength_eq_true_iff.2 h)]

section Unpad
variable {q : Bytes} (hne : q.length ≠ 0) (hmod : q.length % 16 = 0)
include hne hmod

/-- Whole blocks reach the checks of the pad value and the pad bytes. -/
theorem unpad_blocks : unpad q =
    if padValueOf q = 0 ∨ (padValueOf q).toNat > 16 then .error padValue
    else if (q.drop (q.length - (padValueOf q).toNat)).all (fun b => b = padValueOf q) then .ok (q.take (q.length - (padValueOf q).toNat))
    else .error padBytes := by
  rw [unpad, badBlockLength_eq_false_iff.2 ⟨hne, hmod⟩, if_neg Bool.false_ne_true]
  rfl

theorem unpad_badValue (h : (padValueOf q).toNat = 0 ∨ 16 < (padValueOf q).toNat) : unpad q = .error padValue := by
  rw [unpad_blocks hne hmod, if_pos (h.imp_left BitVec.eq_of_toNat_eq)]

variable (h0 : (padValueOf q).toNat ≠ 0) (h16 : (padValueOf q).toNat ≤ 16)
include h0 h16

/-- A pad value from 1 to 16 leaves the check of the pad bytes. -/
theorem unpad_goodValue : unpad q =
    if (q.drop (q.length - (padValueOf q).toNat)).all (fun b => b = padValueOf q) then .ok (q.take (q.length - (padValueOf q).toNat))
    else .error padBytes := by
  rw [unpad_blocks hne hmod, if_neg]
  rintro (hzero | hlarge)
  · exact h0 (congrArg BitVec.toNat hzero)
  · omega

theorem unpad_badBytes (h : ¬ PadBytesMatch q) : unpad q = .error padBytes := by
  rw [unpad_goodValue hne hmod h0 h16, if_neg]
  rw [all_drop_iff]
  exact fun hall => h fun k hlow hhigh => congrArg BitVec.toNat (hall k hlow hhigh)

theorem unpad_goodBytes (h : PadBytesMatch q) : unpad q = .ok (q.take (q.length - (padValueOf q).toNat)) := by
  rw [unpad_goodValue hne hmod h0 h16, if_pos]
  exact all_drop_iff.2 fun k hlow hhigh => BitVec.eq_of_toNat_eq (h k hlow hhigh)

end Unpad

/-- Settles O27: the payload reaches `unpad`, whose checks are made in the order of the clauses. -/
theorem unpadResult : Obligations.UnpadResult := by
  intro s q hcap hp
  have hresult : resultOf .unpad s = emit (unpad q) := withPayload_payload _ hcap hp
  have hfails {e : CmdError} (h : unpad q = .error e) : FailsWith .unpad s e.kind.code e.detail :=
    failsWith_of_failure (by rw [hresult, h]; rfl)
  refine ⟨fun hlen => ?length, fun hne hmod hvalue => ?value, fun hne hmod h0 h16 hbytes => ?bytes, fun hne hmod h0 h16 hbytes => ?valid⟩
  case length => exact hfails (unpad_badLength hlen)
  case value => exact hfails (unpad_badValue hne hmod hvalue)
  case bytes =>
    obtain ⟨k, hlow, hhigh, hbad⟩ := hbytes
    exact hfails (unpad_badBytes hne hmod h0 h16 fun hmatch => hbad (hmatch k hlow hhigh))
  case valid => exact gives_of_output (by rw [hresult, unpad_goodBytes hne hmod h0 h16 hbytes]; rfl)

/-! ### Which commands raise which kinds (60_exceptions.md R126) -/

/-- The kinds a command's result can fail with, by command: the "raised by" column for a decoded command. -/
def RaisedBy (i : Instr) (s : State) : ErrKind → Prop
  | .configuration => isCipher i = true ∨ isConfig i = true
  | .padding => (i = .decrypt ∧ (s.mode = .ecb ∨ s.mode = .cbc)) ∨ i = .unpad
  | .unsupportedMode => ∃ mode klen ivlen, i = .config mode klen ivlen
  | .length => isCipher i = true ∨ i = .pad ∨ i = .unpad
  | .verificationMismatch | .illegalCommand => False

/-- A cipher command that fails has failed a check, or its operation has failed. -/
theorem cipherBody_raises {f : Mode → List Word → Bytes → Bytes → Except CmdError Bytes} {i : Instr} {s : State} {e : CmdError}
    (hi : isCipher i = true) (hf : ∀ p, f s.mode s.rk s.iv p = .error e → RaisedBy i s e.kind) (h : cipherBody f s = .failure e) :
    RaisedBy i s e.kind := by
  obtain ⟨-, rfl⟩ | ⟨-, rfl⟩ | ⟨p, hp⟩ := cipherBody_failure h
  · exact .inl hi
  · exact .inl hi
  · exact hf p hp

theorem requireOneBlock_failure {s : State} {body : CmdResult} {e : CmdError} (h : requireOneBlock s body = .failure e) :
    (s.inLen ≠ 16 ∧ e = notOneBlock) ∨ body = .failure e := by
  by_cases hlen : s.inLen = 16
  · exact .inr (requireOneBlock_block body hlen ▸ h)
  · rw [requireOneBlock_other body hlen] at h
    cases h
    exact .inl ⟨hlen, rfl⟩

theorem blockBody_raises {f : List Word → Bytes → Bytes} {i : Instr} {s : State} {e : CmdError} (hi : isCipher i = true)
    (h : blockBody f s = .failure e) : RaisedBy i s e.kind := by
  obtain ⟨-, rfl⟩ | h := requireConfigured_failure h
  · exact .inl hi
  · obtain ⟨-, rfl⟩ | h := requireOneBlock_failure h
    · exact .inl hi
    · obtain ⟨b, hb⟩ := withInput_failure h
      cases hb

theorem configBody_failure {mode : Option Nat} {klen ivlen : Nat} {s : State} {e : CmdError} (h : configBody mode klen ivlen s = .failure e) :
    e.kind = .configuration ∨ e.kind = .unsupportedMode ∧ modeOfCode (mode.getD 0) = none := by
  obtain ⟨e', he, hkind⟩ | ⟨m, hm⟩ := configBody_cases mode klen ivlen s
  · rw [he] at h
    cases h
    exact hkind
  · rw [hm] at h
    obtain ⟨key, h⟩ := withInput_failure h
    obtain ⟨iv, h⟩ := withInput_failure h
    cases h

theorem resultOf_raises {i : Instr} {s : State} {e : CmdError} (hiv : s.iv.length = 16) (h : resultOf i s = .failure e) :
    RaisedBy i s e.kind := by
  cases i <;> dsimp only [resultOf] at h
  case nop | clear => cases h
  case config mode klen ivlen =>
    obtain hkind | ⟨hkind, -⟩ := configBody_failure h <;> rw [hkind]
    · exact .inr rfl
    · exact ⟨mode, klen, ivlen, rfl⟩
  case configDefault =>
    obtain hkind | ⟨-, hmode⟩ := configBody_failure h
    · rw [hkind]
      exact .inr rfl
    · cases hmode
  case encrypt => exact cipherBody_raises (f := encryptOp) rfl (fun p hp => by cases hp) h
  case decrypt =>
    refine cipherBody_raises rfl (fun p hp => ?_) h
    obtain ⟨hkind, hmode⟩ := modeDecrypt_error hp
    rw [hkind]
    exact .inl ⟨rfl, hmode⟩
  case encryptVerified =>
    refine cipherBody_raises rfl (fun p hp => ?_) h
    rw [encryptVerified_eq s.mode s.rk hiv] at hp
    cases hp
  case blockEnc | blockDec => exact blockBody_raises rfl h
  case pad =>
    obtain ⟨-, rfl⟩ | ⟨p, hp⟩ := withPayload_failure h
    · exact .inr (.inl rfl)
    · cases hp
  case unpad =>
    obtain ⟨-, rfl⟩ | ⟨q, hq⟩ := withPayload_failure h
    · exact .inr (.inr rfl)
    · rw [unpad_error (emit_failure hq)]
      exact .inr rfl

/-- Settles O58: CODE stays 0 or becomes that of a kind the command raises. -/
theorem errorKindsByCommand : Obligations.ErrorKindsByCommand := by
  intro i s t hiv h0 h
  rw [exec_eq_complete] at h
  obtain hcode | ⟨e, he, hcode⟩ := complete_errCode h
  · exact .inl (hcode.trans h0)
  · have hraised := resultOf_raises hiv he
    rw [hcode]
    cases hkind : e.kind <;> rw [hkind] at hraised
    case configuration => exact .inr (.inl ⟨rfl, hraised⟩)
    case padding => exact .inr (.inr (.inl ⟨rfl, hraised⟩))
    case unsupportedMode => exact .inr (.inr (.inr (.inl ⟨rfl, hraised⟩)))
    case length => exact .inr (.inr (.inr (.inr ⟨rfl, hraised⟩)))
    case verificationMismatch | illegalCommand => exact hraised.elim

/-! ### What a command does not read (10_state.md R26, R27) -/

/-- Another IV and another mode. -/
def State.withIvMode (iv : Bytes) (m : Mode) (s : State) : State := { s with iv := iv, mode := m }

/-- Only CONFIG and CLEAR carry an engine update. -/
theorem resultOf_no_update {i : Instr} {s : State} (hconfig : isConfig i = false) (hclear : i ≠ .clear) (e : Engine) (o : Option Bytes) :
    resultOf i s ≠ .success (some e) o := by
  intro hr
  obtain ⟨hi, -⟩ | ⟨hi, -⟩ := resultOf_engineUpdate hr
  · exact hclear hi
  · rw [hconfig] at hi
    cases hi

theorem exec_engineUnchanged {i : Instr} {s t : State} (hconfig : isConfig i = false) (hclear : i ≠ .clear) (h : exec i s = .next t) :
    EngineUnchanged s t := by
  rw [exec_eq_complete] at h
  obtain hsame | ⟨e, o, hr, -⟩ := complete_engine h
  · exact hsame
  · exact absurd hr (resultOf_no_update hconfig hclear e o)

/-- Completing a result that carries no engine update neither reads nor writes IV and MODE. -/
theorem complete_withIvMode {r : CmdResult} {s t : State} (hr : ∀ e o, r ≠ .success (some e) o) (h : complete r s = .next t) (iv : Bytes)
    (m : Mode) : complete r (s.withIvMode iv m) = .next (t.withIvMode iv m) := by
  obtain ⟨upd, rfl, rfl⟩ | ⟨upd, out, rfl, rfl⟩ | ⟨e, rfl, rfl⟩ := complete_cases h
  · cases upd with
    | none => rfl
    | some e => exact absurd rfl (hr e none)
  · cases upd with
    | none => rfl
    | some e => exact absurd rfl (hr e (some out))
  · rfl

/-- A run with another IV and another mode that computes the same result ends in the same state but for these. -/
theorem exec_withIvMode {i : Instr} {s t : State} {iv : Bytes} {m : Mode} (hconfig : isConfig i = false) (hclear : i ≠ .clear)
    (hsame : resultOf i (s.withIvMode iv m) = resultOf i s) (h : exec i s = .next t) :
    exec i (s.withIvMode iv m) = .next (t.withIvMode iv m) := by
  rw [exec_eq_complete] at h ⊢
  rw [hsame]
  exact complete_withIvMode (resultOf_no_update hconfig hclear) h iv m

theorem cipherBody_ecb_withIv (f : Mode → List Word → Bytes → Bytes → Except CmdError Bytes) {s : State} (hmode : s.mode = .ecb) (iv : Bytes)
    (hf : ∀ rk iv iv' p, f .ecb rk iv p = f .ecb rk iv' p) : cipherBody f (s.withIvMode iv s.mode) = cipherBody f s := by
  have hop : (fun p => emit (f s.mode s.rk iv p)) = fun p => emit (f s.mode s.rk s.iv p) := by
    funext p
    rw [hmode, hf s.rk iv s.iv]
  exact congrArg (fun body => requireConfigured s (withPayload s body)) hop

theorem resultOf_ecb_withIv {i : Instr} {s : State} (hconfig : isConfig i = false) (hmode : s.mode = .ecb) (iv : Bytes) :
    resultOf i (s.withIvMode iv s.mode) = resultOf i s := by
  cases i
  case config | configDefault => cases hconfig
  case encrypt => exact cipherBody_ecb_withIv encryptOp hmode iv fun _ _ _ _ => rfl
  case decrypt => exact cipherBody_ecb_withIv modeDecrypt hmode iv fun _ _ _ _ => rfl
  case encryptVerified => exact cipherBody_ecb_withIv encryptVerified hmode iv fun _ _ _ _ => rfl
  case nop | blockEnc | blockDec | pad | unpad | clear => rfl

/-- Settles O59: in ECB the operations take no IV, and the block and padding bodies take neither IV nor MODE. -/
theorem ivUnusedInEcb : Obligations.IvUnusedInEcb := by
  refine ⟨fun i s t iv' hconfig hclear hmode h => ?ecb, fun i s t iv' m' hi h => ?blocksAndPadding⟩
  case ecb =>
    have hrun := exec_withIvMode hconfig hclear (resultOf_ecb_withIv hconfig hmode iv') h
    obtain ⟨-, -, -, hsame, -⟩ := exec_engineUnchanged hconfig hclear h
    have hstate : t.withIvMode iv' s.mode = { t with iv := iv' } := by
      rw [← hsame]
      rfl
    exact hrun.trans (congrArg Host.Outcome.next hstate)
  case blocksAndPadding =>
    obtain rfl | rfl | rfl | rfl := hi <;> exact exec_withIvMode rfl nofun rfl h

end Sys2Proof.Machine

/-! What a host read answers (20_memory.md R46, R49, R51, R53; 10_state.md section 4) and that no host line reaches KEY, IV and RK
(10_state.md section 6). -/

namespace Sys2Proof.Machine

/-! ### Reads of DATA_IN, written or not -/

theorem State.readLane_unwritten {s : State} {k : Nat} (draws : Nat) (hk : k < s.inCap) (hcap : s.inCap ≤ 4080) (hv : s.inByte k = none) :
    s.readLane draws (inWindow + k) = (Config.freeByte draws, draws + 1) := by
  rw [State.readLane_dataIn draws (State.inIndex_dataIn hk hcap), hv]

theorem State.access_read8_unwritten {s : State} {k : Nat} (x : Word) (hv : s.inByte k = none) (hcap : inCapLegal s.inCap = true)
    (hk : k < s.inCap) :
    s.access ⟨.read, 8, BitVec.ofNat 14 (0x1000 + k), x⟩ = (s.withDraws (s.draws + 1)).respond (.okRead8 (Config.freeByte s.draws)) := by
  have hle := inCapLegal_le hcap
  have hlane := State.readLane_unwritten s.draws hk hle hv
  rw [s.access_read_window x (.inl rfl) (Nat.le_add_right 0x1000 k) (by omega), State.readAccess, if_pos rfl]
  show (s.withDraws (s.readLane s.draws (inWindow + k)).2).respond (.okRead8 (s.readLane s.draws (inWindow + k)).1) = _
  rw [hlane]

/-- The draws before lane `i` of a word read at `off` (log entry 4). -/
def State.drawsBefore (s : State) (off : Nat) : Nat → Nat
  | 0 => s.draws
  | i + 1 => (s.readLane (s.drawsBefore off i) (off + i)).2

/-- The byte read at lane `i` of a word read at `off`. -/
def State.laneRead (s : State) (off i : Nat) : Byte := (s.readLane (s.drawsBefore off i) (off + i)).1

theorem State.readAccess_word_lanes (s : State) {off : Nat} (hlow : inWindow ≤ off) :
    s.readAccess 32 off = (s.withDraws (s.drawsBefore off 4)).respond
      (.okRead32 (le32 (s.laneRead off 0) (s.laneRead off 1) (s.laneRead off 2) (s.laneRead off 3))) := by
  rw [State.readAccess, if_neg (by decide), if_neg (Nat.not_lt.2 hlow)]
  rfl

/-- Settles O48: each lane reads its own cell, or the next free byte, with the draws of the lanes before it counted. -/
theorem dataInReads : Obligations.DataInReads := by
  intro s k x hcap hk
  obtain ⟨hmod, -, hle⟩ := inCapLegal_iff.1 hcap
  refine ⟨fun v hv => State.access_read8_dataIn x hv hcap hk, fun hv => State.access_read8_unwritten x hv hcap hk, fun hal => ?word⟩
  case word =>
    refine ⟨s.laneRead (inWindow + k), s.drawsBefore (inWindow + k), rfl, fun i hi => ⟨fun v hv => ?written, fun hv => ?unwritten⟩, ?access⟩
    case written =>
      have hlane := State.laneReads_dataIn (show k + i < s.inCap by omega) hle hv (s.drawsBefore (inWindow + k) i)
      rw [← Nat.add_assoc] at hlane
      exact ⟨congrArg Prod.fst hlane, congrArg Prod.snd hlane⟩
    case unwritten =>
      have hlane := State.readLane_unwritten (s.drawsBefore (inWindow + k) i) (show k + i < s.inCap by omega) hle hv
      rw [← Nat.add_assoc] at hlane
      exact ⟨congrArg Prod.fst hlane, congrArg Prod.snd hlane⟩
    case access =>
      have hlow : inWindow ≤ inWindow + k := Nat.le_add_right _ _
      have hwindow : WindowAccess 32 (inWindow + k) := WindowAccess.inWindow_add (.inr ⟨rfl, hal⟩)
      exact (s.access_read_window x hwindow hlow (show 0x1000 + k < 2 ^ 14 by omega)).trans (s.readAccess_word_lanes hlow)

/-! ### Reads have no side effect (R53) -/

theorem State.le_readLane_draws (s : State) (draws off : Nat) : draws ≤ (s.readLane draws off).2 := by
  cases hin : s.inIndex off with
  | some k =>
    rw [State.readLane_dataIn draws hin]
    split
    · exact Nat.le_refl _
    · exact Nat.le_succ _
  | none =>
    simp only [State.readLane, hin]
    split <;> exact Nat.le_refl _

theorem State.le_drawsBefore (s : State) (off i : Nat) : s.draws ≤ s.drawsBefore off i := by
  induction i with
  | zero => exact Nat.le_refl _
  | succ i ih => exact ih.trans (s.le_readLane_draws _ _)

/-- A read answers, and only draws free bytes. -/
theorem State.readAccess_draws (s : State) (width off : Nat) :
    ∃ n r, s.draws ≤ n ∧ s.readAccess width off = (s.withDraws n).respond r := by
  unfold State.readAccess
  split_ifs
  · exact ⟨_, _, s.le_readLane_draws s.draws off, rfl⟩
  · exact ⟨s.draws, _, Nat.le_refl _, rfl⟩
  · exact ⟨s.drawsBefore off 4, _, s.le_drawsBefore off 4, rfl⟩

theorem State.access_read_draws (s : State) {a : Access} (hdir : a.dir = .read) :
    ∃ n r, s.draws ≤ n ∧ s.access a = (s.withDraws n).respond r := by
  by_cases hlegal : a.legal = true
  · rw [s.access_read hlegal hdir]
    exact s.readAccess_draws _ _
  · exact ⟨s.draws, .busError, Nat.le_refl _, s.access_illegal hlegal⟩

/-- A read does not look at the response to the access before it. -/
theorem State.access_read_respond (s : State) (r : Response) {a : Access} (hdir : a.dir = .read) : (s.respond r).access a = s.access a := by
  by_cases hlegal : a.legal = true
  · rw [s.access_read hlegal hdir, (s.respond r).access_read hlegal hdir]
    unfold State.readAccess
    split_ifs <;> rfl
  · rw [s.access_illegal hlegal, (s.respond r).access_illegal hlegal]
    rfl

section Written
variable {s : State} (hw : s.InputWritten s.inCap)
include hw

theorem State.InputWritten.readLane_draws (draws off : Nat) : (s.readLane draws off).2 = draws := by
  cases hin : s.inIndex off with
  | some k =>
    obtain ⟨hk, -, -⟩ := State.inIndex_eq_some hin
    obtain ⟨v, hv⟩ := Option.ne_none_iff_exists'.1 (hw k hk)
    rw [State.readLane_dataIn draws hin, hv]
  | none =>
    simp only [State.readLane, hin]
    split <;> rfl

theorem State.InputWritten.drawsBefore (off i : Nat) : s.drawsBefore off i = s.draws := by
  induction i with
  | zero => rfl
  | succ i ih => exact (hw.readLane_draws _ _).trans ih

theorem State.InputWritten.readAccess_draws (width off : Nat) : (s.readAccess width off).draws = s.draws := by
  unfold State.readAccess
  split_ifs
  · exact hw.readLane_draws s.draws off
  · rfl
  · exact hw.drawsBefore off 4

theorem State.InputWritten.access_draws {a : Access} (hdir : a.dir = .read) : (s.access a).draws = s.draws := by
  by_cases hlegal : a.legal = true
  · rw [s.access_read hlegal hdir, hw.readAccess_draws]
  · rw [s.access_illegal hlegal, State.respond_draws]

/-- With DATA_IN written a read draws nothing, so the state after it differs in the response only, which a second read does not look at. -/
theorem State.InputWritten.access_access {a : Access} (hdir : a.dir = .read) : (s.access a).access a = s.access a := by
  obtain ⟨n, r, -, h⟩ := s.access_read_draws hdir
  have hn : n = s.draws := by
    have hdraws := hw.access_draws hdir
    rwa [h, State.respond_draws, State.withDraws_draws] at hdraws
  have hsame : s.access a = s.respond r := by rw [h, hn]; rfl
  rw [hsame, s.access_read_respond r hdir, hsame]

end Written

/-- Settles O50: a read of either width is answered from the state it leaves as it was. -/
theorem readsHaveNoSideEffect : Obligations.ReadsHaveNoSideEffect := by
  intro s a hdir
  obtain ⟨n, r, hn, h⟩ := s.access_read_draws hdir
  exact ⟨⟨n, r, hn, h⟩, fun hw => ⟨hw.access_access hdir, hw.access_draws hdir⟩⟩

/-! ### Registers (R51; 10_state.md section 4) -/

theorem State.access_read_register (s : State) {off : BitVec 14} (x : Word) (hlow : off.toNat < inWindow) (hal : off.toNat % 4 = 0) :
    s.access ⟨.read, 32, off, x⟩ = s.respond (.okRead32 (s.readRegister off.toNat)) := by
  rw [s.access_read (Access.legal_iff.2 (.inr ⟨rfl, hal⟩)) rfl, s.readAccess_register hlow]

theorem State.access_inLen_idle {s : State} (w : Word) (hb : s.busy = false) :
    s.access ⟨.write, 32, 0x000C, w⟩ = (s.setInLen w).respond .okWrite := by
  have hstore : s.writeRegister offInLen w = s.setInLen w := by
    rw [State.writeRegister, if_neg (by decide), if_pos rfl, hb, if_neg Bool.false_ne_true]
  have hal : (0x000C : BitVec 14).toNat % 4 = 0 := by decide
  rw [s.access_write (Access.legal_iff.2 (.inr ⟨rfl, hal⟩)) rfl, ← hstore]
  rfl

/-- Settles O51: each offset reads its register. -/
theorem registerAccesses : Obligations.RegisterAccesses := by
  intro s w x
  refine ⟨?cmd, ?status, ?error, ?inLen, ?outLen, ?caps, State.access_inLen_idle w⟩
  case cmd | status | error | inLen | outLen | caps => exact s.access_read_register x (by decide) (by decide)

theorem toNat_decide (p : Prop) [Decidable p] : (decide p).toNat = if p then 1 else 0 := by
  by_cases h : p <;> simp [h]

theorem State.modeView_toNat (s : State) : s.modeView.toNat = if s.cfg = .configured then s.mode.code.toNat else 0 :=
  apply_ite BitVec.toNat _ _ _

theorem State.statusWord_toNat (s : State) : s.statusWord.toNat =
    s.busy.toNat + 2 * s.done.toNat + 4 * s.errFlag.toNat + 8 * s.cfgFlag.toNat + 16 * s.outValid.toNat + 32 * s.ign.toNat +
      256 * s.modeView.toNat := by
  simp only [State.statusWord, toNat_append_eq_add, BitVec.toNat_ofBool, BitVec.toNat_ofNat]
  omega

theorem State.errorWord_toNat (s : State) : s.errorWord.toNat = 256 * s.errDetail.toNat + s.errCode.toNat := by
  simp only [State.errorWord, toNat_append_eq_add, BitVec.toNat_ofNat]
  omega

theorem State.capsWord_toNat {s : State} (hcap : inCapLegal s.inCap = true) : s.capsWord.toNat = s.inCap := by
  have hle := inCapLegal_le hcap
  simp only [State.capsWord, toNat_append_eq_add, BitVec.toNat_ofNat]
  omega

/-- Settles O52: a register's word is the concatenation of its fields. -/
theorem registerFields : Obligations.RegisterFields := by
  intro s
  refine ⟨?status, s.errorWord_toNat, State.capsWord_toNat⟩
  case status =>
    rw [s.statusWord_toNat, s.modeView_toNat]
    simp only [State.errFlag, State.cfgFlag, toNat_decide]
    cases s.mode <;> rfl

/-! ### KEY, IV and RK have no host path -/

/-- Other values of KEY, IV and RK. -/
def State.withSecrets (key iv : Bytes) (rk : List Word) (s : State) : State := { s with key := key, iv := iv, rk := rk }

@[simp] theorem State.withSecrets_busy (key iv : Bytes) (rk : List Word) (s : State) : (s.withSecrets key iv rk).busy = s.busy := rfl

theorem State.writeLane_ignored {s : State} {off : Nat} (v : Byte) (h : s.inIndex off = none) : s.writeLane off v = s := by
  rw [State.writeLane, h]

section Secrets
variable (key iv : Bytes) (rk : List Word) (s : State)

theorem State.readAccess_withSecrets (width off : Nat) :
    (s.withSecrets key iv rk).readAccess width off = (s.readAccess width off).withSecrets key iv rk := by
  unfold State.readAccess
  split_ifs <;> rfl

theorem State.writeLane_withSecrets (off : Nat) (v : Byte) :
    (s.withSecrets key iv rk).writeLane off v = (s.writeLane off v).withSecrets key iv rk := by
  obtain ⟨hin, h⟩ | ⟨k, hin, hb, h⟩ | ⟨k, hin, hb, h⟩ := s.writeLane_cases off v <;> rw [h]
  · exact State.writeLane_ignored (s := s.withSecrets key iv rk) v hin
  · exact State.writeLane_busy (s := s.withSecrets key iv rk) v hin hb
  · exact State.writeLane_idle (s := s.withSecrets key iv rk) v hin hb

theorem State.writeLanes_withSecrets (off : Nat) (vs : Bytes) :
    (s.withSecrets key iv rk).writeLanes off vs = (s.writeLanes off vs).withSecrets key iv rk := by
  induction vs generalizing off s with
  | nil => rfl
  | cons v vs ih => rw [State.writeLanes, State.writeLane_withSecrets, ih, State.writeLanes]

theorem State.writeRegister_withSecrets (off : Nat) (w : Word) :
    (s.withSecrets key iv rk).writeRegister off w = (s.writeRegister off w).withSecrets key iv rk := by
  rw [State.writeRegister, State.writeRegister, State.withSecrets_busy]
  split_ifs <;> rfl

theorem State.writeAccess_withSecrets (width off : Nat) (w : Word) :
    (s.withSecrets key iv rk).writeAccess width off w = (s.writeAccess width off w).withSecrets key iv rk := by
  unfold State.writeAccess
  split_ifs
  · exact s.writeLane_withSecrets key iv rk off _
  · exact s.writeRegister_withSecrets key iv rk off w
  · exact s.writeLanes_withSecrets key iv rk off _

theorem State.access_withSecrets (a : Access) : (s.withSecrets key iv rk).access a = (s.access a).withSecrets key iv rk := by
  by_cases hlegal : a.legal = true
  · cases hdir : a.dir with
    | read =>
      rw [s.access_read hlegal hdir, State.access_read _ hlegal hdir]
      exact s.readAccess_withSecrets key iv rk _ _
    | write =>
      rw [s.access_write hlegal hdir, State.access_write _ hlegal hdir, State.writeAccess_withSecrets]
      rfl
  · rw [s.access_illegal hlegal, State.access_illegal _ hlegal]
    rfl

theorem State.runLine_withSecrets (l : HostLine) : (s.withSecrets key iv rk).runLine l = (s.runLine l).withSecrets key iv rk := by
  cases l with
  | access a bind =>
    simp only [State.runLine, State.access_withSecrets]
    rfl
  | bnz name mask target => rfl

end Secrets

/-- Settles O60: every update of a host's line commutes with replacing KEY, IV and RK. -/
theorem hostNeverSeesKey : Obligations.HostNeverSeesKey := by
  intro s key' iv' rk'
  show (s.withSecrets key' iv' rk').hostStep = s.hostStep.withSecrets key' iv' rk'
  cases hline : s.host.prog[s.host.line]? with
  | none => rw [State.hostStep_ended hline, State.hostStep_ended (s := s.withSecrets key' iv' rk') hline]
  | some l =>
    rw [State.hostStep_line hline, State.hostStep_line (s := s.withSecrets key' iv' rk') hline]
    exact s.runLine_withSecrets key' iv' rk' l

end Sys2Proof.Machine

/-! The recurrences and word transforms of the cipher (41_key_schedule.md sections 2 to 5; 42_block_transform.md sections 1 and 2). The key schedule
and the rounds are one shift register of four words with a different feedback. -/

namespace Sys2Proof.Machine

/-! ### A shift register of four words -/

/-- The four words, oldest first. -/
def Quad.words (q : Quad) : List Word := [q.a, q.b, q.c, q.d]

/-- The oldest word leaves, `w` enters. -/
def Quad.shift (q : Quad) (w : Word) : Quad := ⟨q.b, q.c, q.d, w⟩

/-- The words that enter under the feedback `f`, one for each element of a list. -/
def shiftIns (f : Quad → Word → Word) : Quad → List Word → List Word
  | _, [] => []
  | q, c :: cs => f q c :: shiftIns f (q.shift (f q c)) cs

/-- All words of the register, those it starts with first. -/
def registerWords (f : Quad → Word → Word) (q : Quad) (cs : List Word) : List Word := q.words ++ shiftIns f q cs

/-- Words `i` to `i + 3` of a list. -/
def quadAt (l : List Word) (i : Nat) : Quad := ⟨l.getD i 0, l.getD (i + 1) 0, l.getD (i + 2) 0, l.getD (i + 3) 0⟩

section Register
variable (f : Quad → Word → Word)

@[simp] theorem shiftIns_length (q : Quad) (cs : List Word) : (shiftIns f q cs).length = cs.length := by
  induction cs generalizing q with
  | nil => rfl
  | cons c cs ih => simp [shiftIns, ih]

/-- After the oldest word come the words of the register shifted once. -/
theorem registerWords_cons (q : Quad) (c : Word) (cs : List Word) :
    registerWords f q (c :: cs) = q.a :: registerWords f (q.shift (f q c)) cs := rfl

/-- Each word that enters is the feedback of the four words before it. -/
theorem registerWords_recurrence (q : Quad) (cs : List Word) {i : Nat} (hi : i < cs.length) :
    (registerWords f q cs).getD (i + 4) 0 = f (quadAt (registerWords f q cs) i) (cs.getD i 0) := by
  induction cs generalizing q i with
  | nil => exact absurd hi i.not_lt_zero
  | cons c cs ih =>
    cases i with
    | zero => rfl
    | succ i =>
      rw [registerWords_cons]
      exact ih (q.shift (f q c)) (Nat.lt_of_succ_lt_succ hi)

/-- The register ends with the last four words. -/
theorem foldl_shift (q : Quad) (cs : List Word) :
    cs.foldl (fun q c => q.shift (f q c)) q = quadAt (registerWords f q cs) cs.length := by
  induction cs generalizing q with
  | nil => rfl
  | cons c cs ih =>
    rw [registerWords_cons, List.foldl_cons, ih]
    rfl

end Register

/-! ### The key schedule (R89) -/

theorem expandFrom_eq_shiftIns (q : Quad) (cs : List Word) : expandFrom q cs = shiftIns nextKeyWord q cs := by
  induction cs generalizing q with
  | nil => rfl
  | cons c cs ih => exact congrArg (nextKeyWord q c :: ·) (ih _)

theorem keyExpand_eq_shiftIns (key : Bytes) : keyExpand key = shiftIns nextKeyWord (keyStart key) ((List.range 32).map ck) :=
  expandFrom_eq_shiftIns _ _

theorem roundConstant_getD {i : Nat} (hi : i < 32) : ((List.range 32).map ck).getD i 0 = ck i := by
  simp [List.getD_eq_getElem?_getD, hi]

/-- Settles O28: the key schedule is the register that starts with the key words under FK and feeds back `nextKeyWord`. -/
theorem keyExpandRecurrence : Obligations.KeyExpandRecurrence := by
  intro key K
  have hK : K = registerWords nextKeyWord (keyStart key) ((List.range 32).map ck) := congrArg ((keyStart key).words ++ ·) (keyExpand_eq_shiftIns key)
  refine ⟨by simp [keyExpand_eq_shiftIns], fun i hi => ?_⟩
  rw [hK, registerWords_recurrence nextKeyWord _ _ (by simpa using hi), roundConstant_getD hi]
  rfl

/-! ### The rounds (R93) -/

/-- The word that a round adds. -/
def nextRoundWord (x : Quad) (k : Word) : Word := x.a ^^^ transBlock (x.b ^^^ x.c ^^^ x.d ^^^ k)

theorem roundStep_eq_shift : roundStep = fun x k => x.shift (nextRoundWord x k) := rfl

theorem rounds_eq_quadAt (ks : List Word) (b : Bytes) :
    rounds ks b = joinReversed (quadAt (registerWords nextRoundWord (splitBlock b) ks) ks.length) := by
  rw [rounds, roundStep_eq_shift, foldl_shift]

/-- Settles O29: the rounds are the register that starts with the block's words and feeds back `nextRoundWord`; its last four words are put out in
reverse order. -/
theorem roundsRecurrence : Obligations.RoundsRecurrence := by
  intro ks b hks
  refine ⟨registerWords nextRoundWord (splitBlock b) ks, ?length, fun j hj => ?start, fun i hi => ?recurrence, ?output⟩
  case length => rw [registerWords, List.length_append, shiftIns_length, hks]; rfl
  case start => interval_cases j <;> rfl
  case recurrence =>
    rw [registerWords_recurrence nextRoundWord _ _ (hks ▸ hi)]
    rfl
  case output =>
    rw [rounds_eq_quadAt, hks]
    rfl

/-! ### The word transforms (R83 to R85, R91) -/

/-- The place of a byte in the SBOX table, looked up as a number. -/
def sboxIndex (y : Byte) : Byte := BitVec.ofNat 8 ((sboxRows.flatten.map BitVec.toNat).idxOf y.toNat)

/-- Every byte stands in the table: 256 look-ups. -/
theorem sbox_sboxIndex : ∀ y : Byte, sbox (sboxIndex y) = y := by decide +kernel

theorem sbox_bijective : Function.Bijective sbox :=
  (Function.LeftInverse.surjective sbox_sboxIndex).bijective_of_finite

theorem lane_tau (a : Word) {j : Nat} (hj : j < 4) : lane (tau a) j = sbox (lane a j) := by
  obtain ⟨h0, h1, h2, h3⟩ := lane_be32 (sbox (lane a 3)) (sbox (lane a 2)) (sbox (lane a 1)) (sbox (lane a 0))
  interval_cases j
  · exact h0
  · exact h1
  · exact h2
  · exact h3

theorem rotateLeft_eq_shifts (b : Word) {r : Nat} (hr : r < 32) : b.rotateLeft r = b <<< r ||| b >>> (32 - r) := by
  rw [BitVec.rotateLeft_def, Nat.mod_eq_of_lt hr]

theorem rotateLeft_xor (a b : Word) (r : Nat) : (a ^^^ b).rotateLeft r = a.rotateLeft r ^^^ b.rotateLeft r := by
  ext i hi
  simp only [BitVec.getElem_rotateLeft, BitVec.getElem_xor]
  split <;> rfl

theorem linKey_xor (a b : Word) : linKey (a ^^^ b) = linKey a ^^^ linKey b := by
  simp only [linKey, rotateLeft_xor]
  ac_rfl

theorem linBlock_xor (a b : Word) : linBlock (a ^^^ b) = linBlock a ^^^ linBlock b := by
  simp only [linBlock, rotateLeft_xor]
  ac_rfl

/-- Settles O30: SBOX has a right inverse on a finite type, and a rotation is two shifts and distributes over XOR. -/
theorem wordTransforms : Obligations.WordTransforms := by
  refine ⟨sbox_bijective, fun a j => lane_tau a, fun b => ?linKey, fun b => ?linBlock, linKey_xor, linBlock_xor⟩
  case linKey => simp only [linKey, rotateLeft_eq_shifts b (show 13 < 32 by decide), rotateLeft_eq_shifts b (show 23 < 32 by decide)]
  case linBlock =>
    simp only [linBlock, rotateLeft_eq_shifts b (show 2 < 32 by decide), rotateLeft_eq_shifts b (show 10 < 32 by decide),
      rotateLeft_eq_shifts b (show 18 < 32 by decide), rotateLeft_eq_shifts b (show 24 < 32 by decide)]

/-! ### The standard's example (95_test_vectors.md V-KS-1, V-BT-1, V-BT-2) -/

/-- The standard's key, which is its block too. -/
def stdBlock : Bytes := [0x01, 0x23, 0x45, 0x67, 0x89, 0xab, 0xcd, 0xef, 0xfe, 0xdc, 0xba, 0x98, 0x76, 0x54, 0x32, 0x10]

/-- The standard's ciphertext. -/
def stdCiphertext : Bytes := [0x68, 0x1e, 0xdf, 0x34, 0xd2, 0x06, 0x96, 0x5e, 0x86, 0xb3, 0xe9, 0x4f, 0x53, 0x6e, 0x42, 0x46]

theorem keyExpand_stdBlock_ends : (keyExpand stdBlock).getD 0 0 = 0xF12186F9 ∧ (keyExpand stdBlock).getD 31 0 = 0x9124A012 := by
  decide +kernel

theorem blockEncrypt_stdBlock : blockEncrypt (keyExpand stdBlock) stdBlock = stdCiphertext := by decide +kernel

theorem blockDecrypt_stdCiphertext : blockDecrypt (keyExpand stdBlock) stdCiphertext = stdBlock := by
  rw [← blockEncrypt_stdBlock, blockDecrypt_blockEncrypt _ rfl]

/-- Settles O31: the round keys and the ciphertext are evaluated, and the decryption follows by the round trip of R96. -/
theorem standardExample : Obligations.StandardExample :=
  ⟨keyExpand_stdBlock_ends.1, keyExpand_stdBlock_ends.2, blockEncrypt_stdBlock, blockDecrypt_stdCiphertext⟩

end Sys2Proof.Machine
